-- ==== Sys2Proof/Word.lean ====
section
/-! DEFINITION. The word types and the fixed-length table type: the plainest data every other file uses. -/

namespace Sys2Proof

/-- One byte of a frame, a body or an image (R180). -/
abbrev Byte := BitVec 8

/-- A table of exactly `n` records: the 64 slots, the 16 watches, the 8 controllers, the 4 clients. -/
abbrev Vec (α : Type) (n : Nat) : Type := { l : List α // l.length = n }

/-- The record at place `i`. -/
def Vec.get {α : Type} {n : Nat} (v : Vec α n) (i : Fin n) : α :=
  v.1[i.1]'(v.2.symm ▸ i.2)

/-- The table with the record at place `i` replaced. -/
def Vec.set {α : Type} {n : Nat} (v : Vec α n) (i : Fin n) (x : α) : Vec α n :=
  ⟨v.1.set i.1 x, by simp [v.2]⟩

/-- Every record changed by `f`. -/
def Vec.map {α β : Type} {n : Nat} (f : α → β) (v : Vec α n) : Vec β n :=
  ⟨v.1.map f, by simp [v.2]⟩

/-- The table whose record at each place is given by `f`. -/
def Vec.ofFn {α : Type} {n : Nat} (f : Fin n → α) : Vec α n :=
  ⟨List.ofFn f, by simp⟩

/-- The table that holds `x` at every place. -/
def Vec.replicate {α : Type} (n : Nat) (x : α) : Vec α n :=
  ⟨List.replicate n x, by simp⟩

end Sys2Proof
end

