-- ==== Sys2Proof/Syntax.lean ====
section
/-! DEFINITION. The commands of the block: `Instr`, one constructor per row of spec/opcode_table.json, with
the operands a row needs to say where it happens. -/

namespace Sys2Proof

/-- A client, 0 to 3, and its port, queue and lines (00_scope, R138). -/
abbrev Client := Fin 4

/-- A domain, D0 to D7 (R74). -/
abbrev Dom := Fin 8

/-- A slot of the lease table, 0 to 63 (R1). -/
abbrev SlotNo := Fin 64

/-- A watch id, 0 to 15 (R123). -/
abbrev WatchId := Fin 16

/-- A wake line, WAKE0 to WAKE23 (R120). -/
abbrev Line := Fin 24

/-- A fall of a domain's PGOOD, and whether it comes ahead of another event at the controller (R112;
notes/assumptions 29). -/
structure PgoodFall where
  /-- The domain. -/
  domain : Dom
  /-- Only the level falls; the loss waits for the other event. -/
  ahead : Bool
  deriving DecidableEq, Repr

/-- A generation, 0 to 1023, wrapping (R4). -/
abbrev Gen := BitVec 10

/-- A handle: slot and generation (R5). -/
structure Handle where
  /-- The slot. -/
  slot : SlotNo
  /-- The generation. -/
  gen : Gen
  deriving DecidableEq, Repr

/-- The commands. Each is one whole step of the part (95_what_each_step_holds).

The twenty-six takes have no operand: the arguments of a request stand in the frame its port holds, and
the engine itself chooses the port (R20).

A transaction's operand `cut` says that it was in progress when its port was cleared by a teardown, or had
begun before part start completed, so that the port ignores what is left of it (R145, R169); for a COLLECT it also
says how many bytes the port still shifted out (notes/assumptions 13). -/
inductive Instr where
  /-- LEASE_TAKE (R27): the engine takes a held LEASE.TAKE. -/
  | leaseTake
  /-- LEASE_RENEW (R30): the engine takes a held LEASE.RENEW. -/
  | leaseRenew
  /-- LEASE_ALTER (R32): the engine takes a held LEASE.ALTER. -/
  | leaseAlter
  /-- LEASE_RELEASE (R34): the engine takes a held LEASE.RELEASE. -/
  | leaseRelease
  /-- LEASE_READ (R37): the engine takes a held LEASE.READ. -/
  | leaseRead
  /-- LEASE_LIST (R39): the engine takes a held LEASE.LIST. -/
  | leaseList
  /-- LEASE_REVOKE (R41): the engine takes a held LEASE.REVOKE. -/
  | leaseRevoke
  /-- LEASE_OFFER (R62): the engine takes a held LEASE.OFFER. -/
  | leaseOffer
  /-- LEASE_WITHDRAW (R64): the engine takes a held LEASE.WITHDRAW. -/
  | leaseWithdraw
  /-- LEASE_ACCEPT (R66): the engine takes a held LEASE.ACCEPT. -/
  | leaseAccept
  /-- LEASE_ADOPT (R167): the engine takes a held LEASE.ADOPT. -/
  | leaseAdopt
  /-- WATCH_SET (R125): the engine takes a held WATCH.SET. -/
  | watchSet
  /-- WATCH_DROP (R129): the engine takes a held WATCH.DROP. -/
  | watchDrop
  /-- WATCH_READ (R131): the engine takes a held WATCH.READ. -/
  | watchRead
  /-- LINES_READ (R131): the engine takes a held LINES.READ. -/
  | linesRead
  /-- DOMAIN_READ (R91): the engine takes a held DOMAIN.READ. -/
  | domainRead
  /-- DOMAIN_SETUP (R93): the engine takes a held DOMAIN.SETUP. -/
  | domainSetup
  /-- DOMAIN_DIVIDE (R94): the engine takes a held DOMAIN.DIVIDE. -/
  | domainDivide
  /-- DOMAIN_CLEAR (R117): the engine takes a held DOMAIN.CLEAR. -/
  | domainClear
  /-- CLIENT_STATUS (R143): the engine takes a held CLIENT.STATUS. -/
  | clientStatus
  /-- CLIENT_CLEARCAUSE (R144): the engine takes a held CLIENT.CLEARCAUSE. -/
  | clientClearCause
  /-- CLIENT_QUOTA (R150): the engine takes a held CLIENT.QUOTA. -/
  | clientQuota
  /-- CLIENT_RESTART (R149): the engine takes a held CLIENT.RESTART. -/
  | clientRestart
  /-- SUPER_PASS (R152): the engine takes a held SUPER.PASS. -/
  | superPass
  /-- NOTICE_FETCH (R158): the engine takes a held NOTICE.FETCH. -/
  | noticeFetch
  /-- PART_IDENT (R179): the engine takes a held PART.IDENT. -/
  | partIdent
  /-- REMAINING_REACHES_ZERO (R49): the tick that brings the remaining term of the lease in the slot to 0. -/
  | remainingReachesZero (slot : SlotNo)
  /-- LEASE_TERM_EXPIRY (R50): the engine takes the lease-term expiry claim that names the handle. -/
  | leaseTermExpiry (h : Handle)
  /-- OFFER_WINDOW_RUNS_OUT (R60): the tick that brings the window of the offer in the slot to 0. -/
  | offerWindowRunsOut (slot : SlotNo)
  /-- OFFER_WINDOW_EXPIRY (R68): the engine takes the offer-window expiry claim that names the handle. -/
  | offerWindowExpiry (h : Handle)
  /-- ADOPTION_WINDOW_RUNS_OUT (R165): the tick that brings the adoption window count to 0. -/
  | adoptionWindowRunsOut
  /-- ADOPTION_WINDOW_EXPIRY (R166): the engine takes the adoption-window expiry claim. -/
  | adoptionWindowExpiry
  /-- FIRING (R127): the engine takes the firing claim of the watch. -/
  | firing (w : WatchId)
  /-- TICK (R45): the tick divider ends its count. -/
  | tick
  /-- LINE_SAMPLE (R120): the Wake Line Unit takes a sample. -/
  | lineSample
  /-- WAKE_LINE_CHANGE (R121): the line goes to the level `high`. -/
  | wakeLineChange (l : Line) (high : Bool)
  /-- DEMAND_CHANGE (R76): a demand change reaches the domain's controller. -/
  | demandChange (d : Dom)
  /-- PARENT_CHANGE (R99): a parent change reaches the domain's controller. -/
  | parentChange (d : Dom)
  /-- PGOOD_PRESENT (R79): the domain's PGOOD becomes present. -/
  | pgoodPresent (d : Dom)
  /-- PGOOD_LOSS (R110): the domain's PGOOD is lost. Where the fall comes ahead of another event at
  the controller only the level falls, and the loss waits to be judged by a PGOOD_LOSS that is not ahead (R112;
  notes/assumptions 29). -/
  | pgoodLoss (fall : PgoodFall)
  /-- RAMP_END (R109): the tick that ends the POWERING timer with PGOOD absent. -/
  | rampEnd (d : Dom)
  /-- SETTLE_END (R82): the tick that ends the STARTING timer. -/
  | settleEnd (d : Dom)
  /-- LINGER_END (R85): the tick that ends the LINGER timer. -/
  | lingerEnd (d : Dom)
  /-- DISCHARGE_END (R86): the tick that ends the DISCHARGE timer. -/
  | dischargeEnd (d : Dom)
  /-- HOME_LOST_TEARDOWN (R145): Client Control carries out a home-lost event of the client. -/
  | homeLostTeardown (c : Client)
  /-- RESTART_PULSE_END (R141): the tick that brings the client's restart pulse to 0. -/
  | restartPulseEnd (c : Client)
  /-- REST_DELAY_END (R133): the tick that brings the rest timer to 0. -/
  | restDelayEnd
  /-- WAKING_END (R135): the 64th TREF period of WAKING has ended. -/
  | wakingEnd
  /-- RESET_ASSERT (R162): RESET_N falls. -/
  | resetAssert
  /-- PART_START (R164): RESET_N is released with the straps at these levels. -/
  | partStart (plan1 : Bool) (plan0 : Bool)
  /-- SEND (R172): a SEND ends; `bytes` are the whole bytes received after C3h. -/
  | send (c : Client) (cut : Bool) (bytes : List Byte)
  /-- COLLECT (R175): a COLLECT; `n` whole bytes were clocked after 3Ch, all of them served, or only the first `k`
  where `cut` is `some k`. -/
  | collect (c : Client) (cut : Option Nat) (n : Nat)
  /-- IGNORED_TRANSACTION (R169): `bytes` are the whole bytes received, the first being neither C3h nor 3Ch. -/
  | ignoredTransaction (c : Client) (cut : Bool) (bytes : List Byte)
  deriving DecidableEq, Repr

end Sys2Proof
end

