-- ==== Sys2Proof/Decode.lean ====
section
/-! DEFINITION. The decoder of command words. The block fetches no instruction and no row of
spec/opcode_table.json gives bits: no word spells a command. (The request frames of a port are read in
Machine/Operands.lean and Machine/Flags.lean.) -/

namespace Sys2Proof

/-- The command an opcode-table word spells: none, for no row of the table has bits. -/
def decodeTableWord (_nbits _w : Nat) : Option Instr := none

end Sys2Proof
end

