-- ==== Sys2Proof/Config.lean ====
section
/-! DEFINITION. What the part fixes: capacities, delays, the default setup, the default tree and the Plan ROM.
The spec leaves no value of a step open, so there is no free value here. -/

namespace Sys2Proof

/-- A level a lease may demand (R6). OFF is never the level of a lease. -/
inductive Level where
  /-- Retention. -/
  | hold
  /-- The divided clock. -/
  | slow
  /-- The undivided clock. -/
  | full
  deriving DecidableEq, Repr

/-- A demand or an effective level: `none` is no demand, or OFF (R76, R180). -/
abbrev Reach := Option Level

/-- The setup fields of a domain (R74, R92). -/
structure Setup where
  /-- The parent, if any (R95). -/
  parent : Option Dom
  /-- The need (R95). -/
  need : Level
  /-- The ramp, 1 to 255 ticks. -/
  ramp : Nat
  /-- The settle time, 0 to 255 ticks. -/
  settle : Nat
  /-- The linger, 0 to 255 ticks. -/
  linger : Nat
  /-- The discharge, 1 to 255 ticks. -/
  discharge : Nat
  /-- Monitor-in-hold. -/
  monitor : Bool
  deriving DecidableEq, Repr

/-- The default tree (R96): D5 on D4 at SLOW, D6 on D4 at HOLD, D7 on D6 at FULL, every other a root. -/
def Config.defaultTree : Dom → Option Dom × Level
  | 5 => (some 4, .slow)
  | 6 => (some 4, .hold)
  | 7 => (some 6, .full)
  | _ => (none, .hold)

/-- The default setup of a domain (R74). -/
def Config.defaultSetup (d : Dom) : Setup :=
  { parent := (Config.defaultTree d).1, need := (Config.defaultTree d).2
    ramp := 16, settle := 4, linger := 32, discharge := 8, monitor := true }

/-- The default divisor exponent (R74). -/
def Config.defaultDivisor : Nat := 3

/-- The boot leases of a plan in plan order, and its adoption window (R163). -/
def Config.planRom : Fin 4 → List (Dom × Level) × Nat
  | 0 => ([(0, .full)], 2048)
  | 1 => ([(0, .full), (1, .full)], 2048)
  | 2 => ([(0, .full), (1, .full), (2, .full), (3, .full), (4, .slow)], 4096)
  | 3 => ([(0, .full), (4, .slow), (5, .full)], 8192)

/-- The last value of the 32-bit creation counter, at which a creation renumbers (R10). -/
def Config.counterMax : Nat := 4294967295

/-- The quota of every client after part start (R13). -/
def Config.defaultQuota : Nat := 16

/-- Ticks of a restart pulse (R141). -/
def Config.pulseTicks : Nat := 4

/-- Ticks of the rest delay (R132). -/
def Config.restDelay : Nat := 16

/-- TREF periods of WAKING (R135). -/
def Config.wakingPeriods : Nat := 64

/-- Entries a notice queue holds (R153). -/
def Config.queueDepth : Nat := 16

/-- The highest count of a queue entry (R153). -/
def Config.countMax : Nat := 255

/-- The longest body of a request frame (R171). -/
def Config.maxBody : Nat := 24

/-- Items of one LEASE.LIST answer (R39). -/
def Config.listItems : Nat := 8

end Sys2Proof
end

