-- ==== Sys2Proof/Machine/State.lean ====
section
/-! DEFINITION. The state of the part: every register, table, queue, port and pin the spec gives it, the queue
of waiting commands, and the state at power-up. -/

namespace Sys2Proof.Machine

/-! ## The lease table (01_the_lease_table) -/

/-- A lapse action (R6). -/
inductive Lapse where
  /-- Retire and report. -/
  | release
  /-- Retire and restart the owner. -/
  | restart
  deriving DecidableEq, Repr

/-- An owner: a client, or BOOT (R6, R8). -/
inductive Owner where
  /-- Owned by a client. -/
  | client (c : Client)
  /-- Created by the start-up plan. -/
  | boot
  deriving DecidableEq, Repr

/-- The offer part of a lease (R59). -/
structure Offer where
  /-- The client offered the lease. -/
  target : Client
  /-- The window remaining, 0 to 4095 ticks. -/
  window : Nat
  deriving DecidableEq, Repr

/-- A lease record (R6), with the two waiting-claim marks the Term Timer keeps for it (R46, R60). The slot
and the generation of its handle are those of the slot it stands in. -/
structure Lease where
  /-- The creation number. -/
  creation : Nat
  /-- The owner. -/
  owner : Owner
  /-- The domain. -/
  domain : Dom
  /-- The level. -/
  level : Level
  /-- The term, 0 for untimed. -/
  term : Nat
  /-- The remaining term, present exactly when the term is not 0. -/
  remaining : Option Nat
  /-- The lapse action. -/
  lapse : Lapse
  /-- The tag. -/
  tag : BitVec 16
  /-- The survives-restart mark. -/
  survives : Bool
  /-- The watch binding. -/
  binding : Option WatchId
  /-- The open offer. -/
  offer : Option Offer
  /-- Set while a lease-term expiry claim for the lease waits (R49). -/
  expiryMark : Bool
  /-- Set while an offer-window expiry claim for the lease waits (R60). -/
  windowMark : Bool
  deriving DecidableEq, Repr

/-- The condition of a slot (R1). -/
inductive Cond where
  /-- The slot holds nothing. -/
  | free
  /-- The slot is reserved by an ARMED watch. -/
  | reserved (w : WatchId)
  /-- The slot holds a lease. -/
  | lease (l : Lease)
  deriving DecidableEq, Repr

/-- A slot: its generation and its condition (R1, R4). -/
structure SlotRec where
  /-- The generation. -/
  gen : Gen
  /-- The condition. -/
  cond : Cond
  deriving DecidableEq, Repr

/-! ## The Watch Table and the wake lines (08_wake_lines_and_watches) -/

/-- A sense (R122). -/
inductive Sense where
  /-- A masked line is low. -/
  | low
  /-- A masked line changed. -/
  | change
  /-- A masked line fell between two samples. -/
  | fall
  /-- A masked line rose between two samples. -/
  | rise
  deriving DecidableEq, Repr

/-- The template of the lease a firing creates (R123). -/
structure Template where
  /-- The domain. -/
  domain : Dom
  /-- The level. -/
  level : Level
  /-- The term, 0 for untimed. -/
  term : Nat
  /-- The lapse action. -/
  lapse : Lapse
  /-- The survives-restart mark. -/
  survives : Bool
  /-- The tag. -/
  tag : BitVec 16
  deriving DecidableEq, Repr

/-- The state of a watch (R123). -/
inductive WatchState where
  /-- The watch judges its lines; its slot is RESERVED. -/
  | armed
  /-- The watch has fired; its slot holds the bound lease. -/
  | spent
  deriving DecidableEq, Repr

/-- A watch record (R123). Its id is its place in the Watch Table. -/
structure Watch where
  /-- The owner. -/
  owner : Client
  /-- The bank of lines. -/
  bank : Fin 3
  /-- The lines looked at: bit `i` is line 8·bank+i. -/
  mask : BitVec 8
  /-- The sense. -/
  sense : Sense
  /-- The lease to create. -/
  template : Template
  /-- ARMED or SPENT. -/
  state : WatchState
  /-- The watch's own slot. -/
  slot : SlotNo
  /-- Set while a firing claim for the watch waits at the engine. -/
  mark : Bool
  /-- The lines of the bank whose change since the last sample came before the watch was ARMED again, and which have not
  changed since: at the next sample their edge does not count (R128; notes/assumptions 28). -/
  stale : BitVec 8
  deriving DecidableEq, Repr

/-- The wake inputs and the Wake Line Unit's samples and latches (R120, R121). Bit `i` is line WAKEi, 1 high. -/
structure WakeUnit where
  /-- The levels at the inputs. -/
  lines : BitVec 24
  /-- The present sample. -/
  present : BitVec 24
  /-- The previous sample. -/
  previous : BitVec 24
  /-- The change latches. -/
  latches : BitVec 24
  deriving DecidableEq, Repr

/-- The part state (8.3). -/
inductive PartState where
  /-- Awake. -/
  | awake
  /-- The rest delay runs. -/
  | restingPending
  /-- The tick and the sampling are stopped. -/
  | quiet
  /-- Waking from rest. -/
  | waking
  deriving DecidableEq, Repr

/-- What the TREF period that ends a count of the divider still owes: it brings a line sample and a tick, in
either order (R45, R120; notes/assumptions 6). -/
inductive Due where
  /-- Nothing. -/
  | none
  /-- The tick: the sample has been taken. -/
  | tick
  /-- The sample: the tick has come. -/
  | sample
  deriving DecidableEq, Repr

/-- Rest Control and the tick divider (R45, R132 to R137). -/
structure Rest where
  /-- The part state. -/
  part : PartState
  /-- The rest timer: ticks of the rest delay, or TREF periods of WAKING. -/
  timer : Nat
  /-- The tick divider, 0 to 31: the TREF periods counted since the last tick. -/
  divider : Nat
  /-- What the TREF period that ended the last count still owes. -/
  due : Due
  deriving DecidableEq, Repr

/-! ## Domain controllers (05_domain_controllers, 07_power_faults) -/

/-- A running level, SLOW or FULL: the held level of STARTING (R74). -/
inductive Run where
  /-- SLOW. -/
  | slow
  /-- FULL. -/
  | full
  deriving DecidableEq, Repr

/-- A controller state, with the held level where the state has one (R74). -/
inductive DomState where
  /-- The supply is off. -/
  | off
  /-- The supply ramps. -/
  | powering
  /-- Retention. -/
  | held
  /-- The clock comes up behind isolation, toward the held level. -/
  | starting (run : Run)
  /-- Running at the divided clock. -/
  | slow
  /-- Running at the undivided clock. -/
  | full
  /-- Staying at the held level after the demand fell. -/
  | linger (at_ : Level)
  /-- The minimum off time. -/
  | discharge
  /-- The supply failed. -/
  | fault
  deriving DecidableEq, Repr

/-- A fault cause (R74). -/
inductive FaultCause where
  /-- No fault since part start. -/
  | none
  /-- The supply did not come up. -/
  | ramp
  /-- The supply failed after it came up. -/
  | loss
  /-- The supply was absent at the settle end. -/
  | recheck
  deriving DecidableEq, Repr

/-- What a DCLK output does (R87). -/
inductive Dclk where
  /-- Stopped. -/
  | stopped
  /-- MCLK divided by 2 to the power `k`. -/
  | divided (k : Nat)
  /-- MCLK. -/
  | undivided
  deriving DecidableEq, Repr

/-- The four outputs of a domain (R87). `true` is asserted. -/
structure Pins where
  /-- PEN asserted. -/
  pen : Bool
  /-- DCLK. -/
  dclk : Dclk
  /-- ISO_N asserted. -/
  iso : Bool
  /-- DRST_N asserted. -/
  drst : Bool
  deriving DecidableEq, Repr

/-- A controller record (R74), with the domain's PGOOD input, its outputs, and the events handed to the
controller on which it has not acted yet. -/
structure Ctrl where
  /-- The state and its held level. -/
  state : DomState
  /-- The timer. -/
  timer : Nat
  /-- The cold flag. -/
  cold : Bool
  /-- The recorded fault cause. -/
  cause : FaultCause
  /-- The setup fields. -/
  setup : Setup
  /-- The divisor exponent. -/
  divisor : Nat
  /-- The lease demand as the engine last handed it on (R18). -/
  leaseDemand : Reach
  /-- The derived demand as the Dependency Logic last handed it on (R98). -/
  derivedDemand : Reach
  /-- Whether the domain is counted toward its parent, as the Dependency Logic last handed it on (R97, R98). -/
  counts : Bool
  /-- A demand change has been handed on and not yet acted on (R76). -/
  demandPending : Bool
  /-- A parent change has been handed on and not yet acted on (R99). -/
  parentPending : Bool
  /-- The PGOOD input: present. -/
  pgood : Bool
  /-- PGOOD has fallen and the controller has not taken the loss up yet (R112). -/
  lossPending : Bool
  /-- The outputs. -/
  pins : Pins
  deriving DecidableEq, Repr

/-! ## Clients (09_clients_and_the_supervisor) -/

/-- The cause flags of a client, or the marks of a CLIENT.CLEARCAUSE (R142, R144). -/
structure CauseFlags where
  /-- PART_START. -/
  partStart : Bool
  /-- HOME_LOST. -/
  homeLost : Bool
  /-- LAPSE_RESTART. -/
  lapseRestart : Bool
  /-- ORDERED_RESTART. -/
  orderedRestart : Bool
  deriving DecidableEq, Repr

/-- The stored part of a client record (R138), with its CRST_N output and the home-lost events raised for the
client and not yet carried out (R89, R146). -/
structure ClientRec where
  /-- The cause flags. -/
  causes : CauseFlags
  /-- The quota. -/
  quota : Nat
  /-- The restart pulse, in ticks. -/
  pulse : Nat
  /-- CRST_N asserted. -/
  crst : Bool
  /-- Home-lost events in flight. -/
  homeLostPending : Nat
  /-- Set while CRST_N stays asserted for an event that makes the home cold and came together with the tick that ended the
  pulse, which was first (R141; notes/assumptions 32). -/
  tied : Bool
  deriving DecidableEq, Repr

/-! ## Notices (10_notices) -/

/-- A kind of notice (R153). -/
inductive NoticeKind where
  /-- The domain reached the lease's level. -/
  | granted
  /-- A forced stop took the domain below the lease's level. -/
  | ungranted
  /-- The lease's domain faulted. -/
  | faulted
  /-- The lease lapsed. -/
  | lapsed
  /-- The lease was revoked. -/
  | revoked
  /-- A lease is offered to the client. -/
  | offered
  /-- An offer the client made has ended. -/
  | offerEnded
  /-- A watch of the client fired. -/
  | watchFired
  /-- A domain faulted (to the supervisor). -/
  | domainFault
  /-- A boot lease lapsed (to the supervisor). -/
  | bootLapsed
  deriving DecidableEq, Repr

/-- The subject of a notice (R153). -/
inductive Subject where
  /-- A lease handle. -/
  | lease (h : Handle)
  /-- A watch id. -/
  | watch (w : WatchId)
  /-- A domain. -/
  | domain (d : Dom)
  deriving DecidableEq, Repr

/-- Why an offer ended (R73). -/
inductive OfferEnd where
  /-- The target accepted. -/
  | accepted
  /-- The window ran out. -/
  | expired
  /-- The target was torn down. -/
  | targetGone
  deriving DecidableEq, Repr

/-- The detail of a notice (R154). -/
inductive Detail where
  /-- GRANTED, UNGRANTED, LAPSED, REVOKED: domain and level. -/
  | level (d : Dom) (l : Level)
  /-- FAULTED: domain and cause. -/
  | cause (d : Dom) (c : FaultCause)
  /-- OFFERED: offerer, domain, level, window. -/
  | offered (offerer : Client) (d : Dom) (l : Level) (window : Nat)
  /-- OFFER_ENDED: target or new owner, and the reason. -/
  | ended (who : Client) (why : OfferEnd)
  /-- WATCH_FIRED: handle of the new lease. -/
  | handle (h : Handle)
  /-- DOMAIN_FAULT: the cause. -/
  | fault (c : FaultCause)
  /-- BOOT_LAPSED: handle and level of the lease that lapsed. -/
  | boot (h : Handle) (l : Level)
  deriving DecidableEq, Repr

/-- An entry of a notice queue (R153). -/
structure Entry where
  /-- The kind. -/
  kind : NoticeKind
  /-- The subject. -/
  subject : Subject
  /-- The detail. -/
  detail : Detail
  /-- How many notices the entry holds, saturating. -/
  count : Nat
  deriving DecidableEq, Repr

/-- A notice queue, oldest entry first, with its overrun marker and its ATTN_N output (R153, R160). -/
structure Queue where
  /-- The entries. -/
  entries : List Entry
  /-- The overrun marker. -/
  overrun : Bool
  /-- ATTN_N asserted. -/
  attn : Bool
  deriving DecidableEq, Repr

/-! ## Client ports (12_client_ports_and_frames) -/

/-- The request kinds, in the order of their codes 1 to 26 (R181). -/
inductive ReqKind where
  /-- LEASE.TAKE. -/
  | leaseTake
  /-- LEASE.RENEW. -/
  | leaseRenew
  /-- LEASE.ALTER. -/
  | leaseAlter
  /-- LEASE.RELEASE. -/
  | leaseRelease
  /-- LEASE.READ. -/
  | leaseRead
  /-- LEASE.LIST. -/
  | leaseList
  /-- LEASE.REVOKE. -/
  | leaseRevoke
  /-- LEASE.OFFER. -/
  | leaseOffer
  /-- LEASE.WITHDRAW. -/
  | leaseWithdraw
  /-- LEASE.ACCEPT. -/
  | leaseAccept
  /-- LEASE.ADOPT. -/
  | leaseAdopt
  /-- WATCH.SET. -/
  | watchSet
  /-- WATCH.DROP. -/
  | watchDrop
  /-- WATCH.READ. -/
  | watchRead
  /-- LINES.READ. -/
  | linesRead
  /-- DOMAIN.READ. -/
  | domainRead
  /-- DOMAIN.SETUP. -/
  | domainSetup
  /-- DOMAIN.DIVIDE. -/
  | domainDivide
  /-- DOMAIN.CLEAR. -/
  | domainClear
  /-- CLIENT.STATUS. -/
  | clientStatus
  /-- CLIENT.CLEARCAUSE. -/
  | clientClearCause
  /-- CLIENT.QUOTA. -/
  | clientQuota
  /-- CLIENT.RESTART. -/
  | clientRestart
  /-- SUPER.PASS. -/
  | superPass
  /-- NOTICE.FETCH. -/
  | noticeFetch
  /-- PART.IDENT. -/
  | partIdent
  deriving DecidableEq, Repr

/-- The answer statuses, in the order of their codes 0 to 20 (R177). -/
inductive Status where
  /-- Accepted. -/
  | ok
  /-- Queue empty. -/
  | empty
  /-- Queue empty, notices were lost. -/
  | overrun
  /-- Bad frame. -/
  | frameError
  /-- Collected while a request is held. -/
  | notReady
  /-- Collected with nothing waiting. -/
  | noAnswer
  /-- Form or value check failed. -/
  | badArgument
  /-- The handle names no present lease. -/
  | stale
  /-- Not the owner. -/
  | notOwner
  /-- Not the supervisor. -/
  | notSupervisor
  /-- No FREE slot. -/
  | tableFull
  /-- Charge equals quota. -/
  | quota
  /-- Sixteen watches exist. -/
  | watchesFull
  /-- No watch holds the id. -/
  | noWatch
  /-- Bound to a watch. -/
  | bound
  /-- An offer is open. -/
  | offerOpen
  /-- No offer for the requester, or not BOOT. -/
  | notOffered
  /-- The target is the requester. -/
  | self
  /-- The domain is not in OFF or has leases. -/
  | domainBusy
  /-- The parent would close a cycle. -/
  | cycle
  /-- The domain is not in FAULT. -/
  | notFaulted
  deriving DecidableEq, Repr

/-- A held request (R170). -/
structure Request where
  /-- The sequence number. -/
  seq : BitVec 4
  /-- The kind. -/
  kind : ReqKind
  /-- The body. -/
  body : List Byte
  deriving DecidableEq, Repr

/-- The flags of an answer (R176). -/
structure Flags where
  /-- PRIOR_DISCARDED. -/
  priorDiscarded : Bool
  /-- BUSY_DROP. -/
  busyDrop : Bool
  /-- TORN. -/
  torn : Bool
  /-- REPLAY. -/
  replay : Bool
  /-- ATTN. -/
  attn : Bool
  deriving DecidableEq, Repr

/-- An answer, without its length and CRC, which follow from it (R175). -/
structure Answer where
  /-- The status. -/
  status : Status
  /-- The flags. -/
  flags : Flags
  /-- The sequence echo. -/
  seqEcho : Byte
  /-- The kind echo. -/
  kindEcho : Byte
  /-- The body. -/
  body : List Byte
  deriving DecidableEq, Repr

/-- The state of a port (R170). -/
inductive PortState where
  /-- Nothing held, nothing waiting. -/
  | idle
  /-- A request waits for the engine. -/
  | held (r : Request)
  /-- An answer waits to be collected. -/
  | ready (a : Answer)
  deriving DecidableEq, Repr

/-- A port record (R170). -/
structure Port where
  /-- The state. -/
  state : PortState
  /-- The answer formed at the last take. -/
  saved : Option Answer
  /-- The sequence memory. -/
  memory : Option (BitVec 4)
  /-- PRIOR_DISCARDED pending. -/
  priorDiscarded : Bool
  /-- BUSY_DROP pending. -/
  busyDrop : Bool
  /-- TORN pending. -/
  torn : Bool
  deriving DecidableEq, Repr

/-- One change of an output pin (R88, R140, R160); `true` is asserted. -/
inductive PinChange where
  /-- PEN of a domain. -/
  | pen (d : Dom) (asserted : Bool)
  /-- DCLK of a domain. -/
  | dclk (d : Dom) (c : Dclk)
  /-- ISO_N of a domain. -/
  | iso (d : Dom) (asserted : Bool)
  /-- DRST_N of a domain. -/
  | drst (d : Dom) (asserted : Bool)
  /-- CRST_N of a client. -/
  | crst (c : Client) (asserted : Bool)
  /-- ATTN_N of a client. -/
  | attn (c : Client) (asserted : Bool)
  deriving DecidableEq, Repr

/-- The state of the part. -/
structure State where
  /-- The lease table (R1). -/
  slots : Vec SlotRec 64
  /-- The creation counter (R9). -/
  counter : Nat
  /-- The next port pointer (R20). -/
  turn : Client
  /-- Lease-term expiry claims waiting at the engine (R21). -/
  termClaims : List Handle
  /-- Offer-window expiry claims waiting at the engine (R21). -/
  windowClaims : List Handle
  /-- The adoption window count, or removed (R165). -/
  adoption : Option Nat
  /-- Set while the adoption-window expiry claim waits (R165). -/
  adoptionMark : Bool
  /-- The Watch Table (R123). -/
  watches : Vec (Option Watch) 16
  /-- The wake lines (R120, R121). -/
  wake : WakeUnit
  /-- Rest Control and the tick divider. -/
  rest : Rest
  /-- The domain controllers (R74). -/
  ctrls : Vec Ctrl 8
  /-- The client records (R138). -/
  clients : Vec ClientRec 4
  /-- The client that holds the supervisor role (R151). -/
  supervisor : Client
  /-- The notice queues (R153). -/
  queues : Vec Queue 4
  /-- The client ports (R170). -/
  ports : Vec Port 4
  /-- The bytes each port drove on MISO in its last transaction (R169, R175). -/
  miso : Vec (List Byte) 4
  /-- The plan in force (R163). -/
  plan : Fin 4
  /-- RESET_N is low (R162). -/
  resetLow : Bool
  /-- The output changes of the step just made, in the order made (R88). -/
  changes : List PinChange
  /-- The commands that wait, first in, first out. -/
  pending : List Instr
  deriving DecidableEq, Repr

/-- Why the part stops: for no reason. Every command of the spec goes on (see INVENTORY.md, Faults), so the
type has no constructor. -/
inductive Fault where
  deriving DecidableEq, Repr

/-- Why a command has no meaning. -/
inductive Refusal where
  /-- Raised by an arm of `exec` for a command that has no meaning yet. Safe: it stops a run and proves
  nothing false. No arm raises it now. -/
  | notModelled (mnemonic : String)
  deriving DecidableEq, Repr

/-! ## Part-start values -/

/-- A FREE slot of generation 0 (R1, R4). -/
def SlotRec.initial : SlotRec := { gen := 0, cond := .free }

/-- The outputs of the OFF row (R87). -/
def Pins.offRow : Pins := { pen := false, dclk := .stopped, iso := true, drst := true }

/-- A controller record after part start, before the plan's demand is handed on (R74), over a PGOOD input. -/
def Ctrl.initial (d : Dom) (pgood : Bool) : Ctrl :=
  { state := .off, timer := 0, cold := true, cause := .none, setup := Config.defaultSetup d
    divisor := Config.defaultDivisor, leaseDemand := none, derivedDemand := none
    counts := false, demandPending := false, parentPending := false, pgood := pgood, lossPending := false
    pins := Pins.offRow }

/-- A client record after part start (R138): the home domain is cold, so CRST_N is asserted. -/
def ClientRec.initial : ClientRec :=
  { causes := { partStart := true, homeLost := false, lapseRestart := false, orderedRestart := false }
    quota := Config.defaultQuota, pulse := 0, crst := true, homeLostPending := 0, tied := false }

/-- An empty queue (R153). -/
def Queue.initial : Queue := { entries := [], overrun := false, attn := false }

/-- A port record after part start or a teardown (R170). -/
def Port.initial : Port :=
  { state := .idle, saved := none, memory := none, priorDiscarded := false, busyDrop := false, torn := false }

/-- The machine at power-up: RESET_N low, every block at its part-start value, no lease, no watch, no claim,
and no command waiting (R162; the inputs and what the spec leaves without a value: notes/assumptions 11, 12). -/
def State.reset : State :=
  { slots := Vec.replicate 64 SlotRec.initial
    counter := 0
    turn := 0
    termClaims := []
    windowClaims := []
    adoption := none
    adoptionMark := false
    watches := Vec.replicate 16 none
    wake := { lines := 0, present := 0, previous := 0, latches := 0 }
    rest := { part := .awake, timer := 0, divider := 0, due := .none }
    ctrls := Vec.ofFn (fun d => Ctrl.initial d false)
    clients := Vec.replicate 4 ClientRec.initial
    supervisor := 0
    queues := Vec.replicate 4 Queue.initial
    ports := Vec.replicate 4 Port.initial
    miso := Vec.replicate 4 []
    plan := 0
    resetLow := true
    changes := []
    pending := [] }

end Sys2Proof.Machine
end

