-- ==== Sys2Proof/Machine/Ops.lean ====
section
/-! DEFINITION. The named operations every meaning uses: reading and writing one record of the state, driving
an output, appending a notice, creating and retiring a lease, judging a watch, ending offers, and the two
teardowns of a client. -/

namespace Sys2Proof.Machine

/-! ## Levels -/

/-- The place of a demand or an effective level on the scale none < HOLD < SLOW < FULL (R76). -/
def reachRank : Reach → Nat
  | none => 0
  | some .hold => 1
  | some .slow => 2
  | some .full => 3

/-- The greater of two demands (R76). -/
def reachMax (a b : Reach) : Reach :=
  if reachRank a < reachRank b then b else a

/-- The effective level a controller state provides (R75). -/
def effLevel : DomState → Reach
  | .off | .powering | .discharge | .fault => none
  | .held | .starting _ => some .hold
  | .slow => some .slow
  | .full => some .full
  | .linger l => some l

/-- Whether a domain is STARTING or at a running level, lingering there included (R97, R104). -/
def isStarted : DomState → Bool
  | .starting _ | .slow | .full | .linger .slow | .linger .full => true
  | .off | .powering | .held | .linger .hold | .discharge | .fault => false

/-- The level of a running level. -/
def Run.level : Run → Level
  | .slow => .slow
  | .full => .full

/-- The controller state a running level names. -/
def Run.state : Run → DomState
  | .slow => .slow
  | .full => .full

/-! ## Reading and writing one record -/

/-- The slot `i`. -/
def State.slot (s : State) (i : SlotNo) : SlotRec := s.slots.get i

/-- The slot `i` replaced. -/
def State.setSlot (s : State) (i : SlotNo) (r : SlotRec) : State := { s with slots := s.slots.set i r }

/-- The watch with id `w`, if one holds it. -/
def State.watch (s : State) (w : WatchId) : Option Watch := s.watches.get w

/-- The watch record `w` replaced. -/
def State.setWatch (s : State) (w : WatchId) (r : Option Watch) : State :=
  { s with watches := s.watches.set w r }

/-- The controller of domain `d`. -/
def State.ctrl (s : State) (d : Dom) : Ctrl := s.ctrls.get d

/-- The controller record `d` replaced. -/
def State.setCtrl (s : State) (d : Dom) (r : Ctrl) : State := { s with ctrls := s.ctrls.set d r }

/-- The client record `c`. -/
def State.client (s : State) (c : Client) : ClientRec := s.clients.get c

/-- The client record `c` replaced. -/
def State.setClient (s : State) (c : Client) (r : ClientRec) : State :=
  { s with clients := s.clients.set c r }

/-- The notice queue of client `c`. -/
def State.queue (s : State) (c : Client) : Queue := s.queues.get c

/-- The notice queue `c` replaced. -/
def State.setQueue (s : State) (c : Client) (q : Queue) : State := { s with queues := s.queues.set c q }

/-- The port record of client `c`. -/
def State.port (s : State) (c : Client) : Port := s.ports.get c

/-- The port record `c` replaced. -/
def State.setPort (s : State) (c : Client) (p : Port) : State := { s with ports := s.ports.set c p }

/-- The record of output changes emptied, at the start of a step. -/
def State.begin (s : State) : State := { s with changes := [] }

/-- One output change recorded. -/
def State.emit (p : PinChange) (s : State) : State := { s with changes := s.changes ++ [p] }

/-! ## Outputs (R87, R88, R140, R160) -/

/-- The outputs of domain `d` set to `p`, recording the change `e`; an output already there is left as it is. -/
def State.drive (d : Dom) (p : Pins) (e : PinChange) (s : State) : State :=
  if (s.ctrl d).pins = p then s
  else (s.setCtrl d { s.ctrl d with pins := p }).emit e

/-- PEN asserted or removed. -/
def State.drivePen (d : Dom) (v : Bool) (s : State) : State :=
  s.drive d { (s.ctrl d).pins with pen := v } (.pen d v)

/-- DCLK stopped or at a rate. -/
def State.driveDclk (d : Dom) (v : Dclk) (s : State) : State :=
  s.drive d { (s.ctrl d).pins with dclk := v } (.dclk d v)

/-- ISO_N asserted or released. -/
def State.driveIso (d : Dom) (v : Bool) (s : State) : State :=
  s.drive d { (s.ctrl d).pins with iso := v } (.iso d v)

/-- DRST_N asserted or released. -/
def State.driveDrst (d : Dom) (v : Bool) (s : State) : State :=
  s.drive d { (s.ctrl d).pins with drst := v } (.drst d v)

/-- CRST_N of a client asserted or released (R140). -/
def State.driveCrst (c : Client) (v : Bool) (s : State) : State :=
  if (s.client c).crst = v then s
  else (s.setClient c { s.client c with crst := v }).emit (.crst c v)

/-- A queue replaced, with ATTN_N following its entries and its marker (R160). -/
def State.putQueue (c : Client) (entries : List Entry) (overrun : Bool) (s : State) : State :=
  let attn := !entries.isEmpty || overrun
  let s' := s.setQueue c { entries := entries, overrun := overrun, attn := attn }
  if (s.queue c).attn = attn then s' else s'.emit (.attn c attn)

/-- The home domain of a client (R138). -/
def homeOf (c : Client) : Dom := ⟨c.1, by omega⟩

/-- The client whose home a domain is, if any (R75). -/
def homeClient (d : Dom) : Option Client := if h : d.1 < 4 then some ⟨d.1, h⟩ else none

/-- Whether an event handed to the controller, or a loss of PGOOD, waits to be acted on (R76, R99, R112). -/
def Ctrl.eventWaits (r : Ctrl) : Bool := r.demandPending || r.parentPending || r.lossPending

/-- Whether CRST_N of a client stays asserted for an event that waits at its home domain: as long as the home is warm and
an event waits there (R141; notes/assumptions 32). -/
def State.staysTied (s : State) (c : Client) : Bool :=
  (s.client c).tied && !(s.ctrl (homeOf c)).cold && (s.ctrl (homeOf c)).eventWaits

/-- CRST_N of a client made to follow its home domain's cold flag and its restart pulse (R140), and the tie of R141. -/
def State.syncCrst (c : Client) (s : State) : State :=
  let tied := s.staysTied c
  (s.setClient c { s.client c with tied := tied }).driveCrst c
    ((s.ctrl (homeOf c)).cold || decide (0 < (s.client c).pulse) || tied)

/-- CRST_N of the client whose home `d` is, if it is anyone's (R89, R140). -/
def State.syncHome (d : Dom) (s : State) : State :=
  match homeClient d with
  | some c => s.syncCrst c
  | none => s

/-! ## Notices (R155) -/

/-- The entries with a notice merged into the entry of its kind and subject. -/
def mergeNotice (k : NoticeKind) (sub : Subject) (det : Detail) : List Entry → List Entry
  | [] => []
  | e :: es =>
    if e.kind = k ∧ e.subject = sub then
      { e with detail := det, count := min (e.count + 1) Config.countMax } :: es
    else e :: mergeNotice k sub det es

/-- Whether an entry of the kind and the subject waits. -/
def hasNotice (k : NoticeKind) (sub : Subject) (es : List Entry) : Bool :=
  es.any (fun e => decide (e.kind = k ∧ e.subject = sub))

/-- A notice reaching the queue of a client: merged, appended at the tail, or dropped with the overrun marker
set (R155). -/
def State.notify (c : Client) (k : NoticeKind) (sub : Subject) (det : Detail) (s : State) : State :=
  let q := s.queue c
  if hasNotice k sub q.entries then s.putQueue c (mergeNotice k sub det q.entries) q.overrun
  else if q.entries.length < Config.queueDepth then
    s.putQueue c (q.entries ++ [{ kind := k, subject := sub, detail := det, count := 1 }]) q.overrun
  else s.putQueue c q.entries true

/-- A notice to the owner of a lease; BOOT has no queue (R153). -/
def State.notifyOwner (o : Owner) (k : NoticeKind) (sub : Subject) (det : Detail) (s : State) : State :=
  match o with
  | .client c => s.notify c k sub det
  | .boot => s

/-! ## Leases -/

/-- The lease in slot `i`, if the slot is in the LEASE condition. -/
def State.leaseAt (s : State) (i : SlotNo) : Option Lease :=
  match (s.slot i).cond with
  | .lease l => some l
  | .free | .reserved _ => none

/-- The handle of the lease in slot `i` (R4). -/
def State.handleAt (s : State) (i : SlotNo) : Handle := { slot := i, gen := (s.slot i).gen }

/-- The lease a handle names: none when the handle is STALE (R5). -/
def State.named (s : State) (h : Handle) : Option Lease :=
  if (s.slot h.slot).gen = h.gen then s.leaseAt h.slot else none

/-- The lease in slot `i` changed; the generation stays (R7). -/
def State.putLease (i : SlotNo) (l : Lease) (s : State) : State :=
  s.setSlot i { gen := (s.slot i).gen, cond := .lease l }

/-- A lease put into its place in ascending creation number (R11). -/
def insertByCreation (x : SlotNo × Lease) : List (SlotNo × Lease) → List (SlotNo × Lease)
  | [] => [x]
  | y :: ys => if x.2.creation ≤ y.2.creation then x :: y :: ys else y :: insertByCreation x ys

/-- The leases of the table with their slots, by slot. -/
def State.leasesBySlot (s : State) : List (SlotNo × Lease) :=
  (List.finRange 64).filterMap (fun i => (s.leaseAt i).map (fun l => (i, l)))

/-- The leases of the table with their slots, in ascending creation number: the listing order (R11). -/
def State.leases (s : State) : List (SlotNo × Lease) :=
  s.leasesBySlot.foldr insertByCreation []

/-- Whether the table holds a lease (R22). -/
def State.hasLease (s : State) : Bool :=
  (List.finRange 64).any (fun i => (s.leaseAt i).isSome)

/-- Whether the table holds a lease owned by BOOT (R165). -/
def State.hasBoot (s : State) : Bool :=
  s.leasesBySlot.any (fun x => decide (x.2.owner = .boot))

/-- The highest level among the leases on a domain (R17). -/
def State.tableDemand (s : State) (d : Dom) : Reach :=
  s.leasesBySlot.foldl (fun r x => if x.2.domain = d then reachMax r (some x.2.level) else r) none

/-- The number of leases on a domain (R17). -/
def State.leaseCount (s : State) (d : Dom) : Nat :=
  s.leasesBySlot.countP (fun x => decide (x.2.domain = d))

/-- Whether a slot is charged to a client: it holds a lease the client owns, or is reserved by a watch of the
client (R12). -/
def State.chargedTo (s : State) (c : Client) (i : SlotNo) : Bool :=
  match (s.slot i).cond with
  | .free => false
  | .lease l => decide (l.owner = .client c)
  | .reserved w => ((s.watch w).map (fun r => decide (r.owner = c))).getD false

/-- A client's charge (R12). -/
def State.charge (s : State) (c : Client) : Nat :=
  (List.finRange 64).countP (fun i => s.chargedTo c i)

/-- The lowest-numbered FREE slot (R3). -/
def State.freeSlot (s : State) : Option SlotNo :=
  (List.finRange 64).find? (fun i => decide ((s.slot i).cond = .free))

/-- The lowest watch id that no watch holds (R125). -/
def State.freeWatch (s : State) : Option WatchId :=
  (List.finRange 16).find? (fun w => (s.watch w).isNone)

/-- The new number of a lease in a renumbering: its place in the old order, from 1 (R10). -/
def State.renumber (s : State) (n : Nat) : Nat :=
  s.leasesBySlot.countP (fun x => decide (x.2.creation < n)) + 1

/-- A slot with its lease renumbered. -/
def SlotRec.renumbered (f : Nat → Nat) (r : SlotRec) : SlotRec :=
  match r.cond with
  | .lease l => { r with cond := .lease { l with creation := f l.creation } }
  | .free | .reserved _ => r

/-- The renumbering that a creation makes first when the counter stands at its last value (R10). -/
def State.makeRoom (s : State) : State :=
  if s.counter = Config.counterMax then
    { s with slots := s.slots.map (SlotRec.renumbered s.renumber), counter := s.leasesBySlot.length }
  else s

/-- The record of a new lease (R7, R27, R127, R164). -/
def newLease (n : Nat) (o : Owner) (t : Template) (b : Option WatchId) : Lease :=
  { creation := n, owner := o, domain := t.domain, level := t.level, term := t.term
    remaining := if t.term = 0 then none else some t.term
    lapse := t.lapse, tag := t.tag, survives := t.survives, binding := b, offer := none
    expiryMark := false, windowMark := false }

/-- A lease created in slot `i`: the counter goes up by one, after a renumbering where R10 requires it, and
gives the lease its creation number; the generation stays (R4, R9). -/
def State.create (i : SlotNo) (o : Owner) (t : Template) (b : Option WatchId) (s : State) : State :=
  let s' := s.makeRoom
  { s'.putLease i (newLease (s'.counter + 1) o t b) with counter := s'.counter + 1 }

/-! ## Watches (R122, R126, R128) -/

/-- The eight lines of a bank (R120). -/
def bankOf (b : Fin 3) (v : BitVec 24) : BitVec 8 := v.extractLsb' (8 * b.1) 8

/-- Whether a watch's condition holds for the samples and latches as they stand (R122). -/
def watchHolds (u : WakeUnit) (r : Watch) : Bool :=
  let now := bankOf r.bank u.present
  let was := bankOf r.bank u.previous
  let met : BitVec 8 :=
    match r.sense with
    | .low => ~~~ now
    | .fall => was &&& ~~~ now
    | .rise => ~~~ was &&& now
    | .change => (was ^^^ now) ||| bankOf r.bank u.latches
  decide (r.mask &&& met ≠ 0)

/-- A bank's eight bits at their places among the lines (R120). -/
def atBank (b : Fin 3) (v : BitVec 8) : BitVec 24 := v.setWidth 24 <<< (8 * b.1)

/-- The samples and latches as a watch looks at them: on its stale lines the present sample stands for the previous one,
so that a change before it was ARMED again does not count save through its latch (R128; notes/assumptions 28). -/
def WakeUnit.seenBy (u : WakeUnit) (r : Watch) : WakeUnit :=
  { u with previous := u.previous ^^^ ((u.previous ^^^ u.present) &&& atBank r.bank r.stale) }

/-- A watch that becomes ARMED with its claim mark clear: a LOW watch is judged at once, any other at the next sample
(R125, R126, R128). -/
def armedWatch (u : WakeUnit) (r : Watch) : Watch :=
  { r with state := .armed, mark := decide (r.sense = .low) && watchHolds u r }

/-- A watch ARMED again: the lines that have left their present sample are stale for it (R128). -/
def rearmedWatch (u : WakeUnit) (r : Watch) : Watch :=
  armedWatch u { r with stale := bankOf r.bank (u.lines ^^^ u.present) }

/-- The watch of a retired bound lease is ARMED again (R128). -/
def State.rearm (w : WatchId) (s : State) : State :=
  match s.watch w with
  | some r => s.setWatch w (some (rearmedWatch s.wake r))
  | none => s

/-- A watch judged at a sample: an ARMED watch with its mark clear whose condition holds raises its claim (R126). No line
is stale after a sample (R128). -/
def judged (u : WakeUnit) (r : Watch) : Watch :=
  { r with mark := r.mark || (decide (r.state = .armed) && watchHolds (u.seenBy r) r), stale := 0 }

/-- Every watch judged. -/
def State.judgeWatches (s : State) : State :=
  { s with watches := s.watches.map (fun o => o.map (judged s.wake)) }

/-! ## Retiring a lease (R2, R34, R35) -/

/-- The lease in slot `i` retired: the record is gone, the generation goes up by one, and the slot goes to
FREE, or to RESERVED for the watch the lease was bound to, which is ARMED again. -/
def State.retire (i : SlotNo) (s : State) : State :=
  match s.leaseAt i with
  | none => s
  | some l =>
    match l.binding with
    | none => s.setSlot i { gen := (s.slot i).gen + 1, cond := .free }
    | some w => (s.setSlot i { gen := (s.slot i).gen + 1, cond := .reserved w }).rearm w

/-- The adoption window count is removed when no lease is owned by BOOT (R165). -/
def State.dropAdoption (s : State) : State :=
  if s.hasBoot then s else { s with adoption := none }

/-! ## Ending the offers made to a client (R71, R145) -/

/-- Whether a lease carries an open offer to the client. -/
def offeredTo (c : Client) (x : SlotNo × Lease) : Bool :=
  (x.2.offer.map (fun o => decide (o.target = c))).getD false

/-- One offer ended because its target is gone: the offer part is removed and its offerer told. -/
def State.endOffer (c : Client) (s : State) (x : SlotNo × Lease) : State :=
  (s.putLease x.1 { x.2 with offer := none }).notifyOwner x.2.owner .offerEnded
    (.lease (s.handleAt x.1)) (.ended c .targetGone)

/-- Every open offer that names the client as target ended, in ascending creation number. -/
def State.endOffersTo (c : Client) (s : State) : State :=
  (s.leases.filter (offeredTo c)).foldl (State.endOffer c) s

/-! ## Teardowns (R145, R147) -/

/-- A client's port cleared (R145 step 2, R170). -/
def State.clearPort (c : Client) (s : State) : State := s.setPort c Port.initial

/-- A client's queue emptied and its marker cleared (R161). -/
def State.clearQueue (c : Client) (s : State) : State := s.putQueue c [] false

/-- The cause flags of a client changed. -/
def State.addCause (c : Client) (f : CauseFlags → CauseFlags) (s : State) : State :=
  s.setClient c { s.client c with causes := f (s.client c).causes }

/-- The home-lost teardown, in the order of R145. -/
def State.homeLost (c : Client) (s : State) : State :=
  let s := s.addCause c (fun f => { f with homeLost := true })
  let s := s.clearPort c
  let s := s.clearQueue c
  s.endOffersTo c

/-- The leases a restart of the client retires, in ascending creation number (R147 step 2). -/
def State.restartRetires (c : Client) (s : State) : List (SlotNo × Lease) :=
  s.leases.filter (fun x => decide (x.2.owner = .client c) && !x.2.survives)

/-- The client restart, in the order of R147; `f` adds the restart's cause flag. -/
def State.restart (c : Client) (f : CauseFlags → CauseFlags) (s : State) : State :=
  let s := s.addCause c f
  let s := (s.restartRetires c).foldl (fun t x => t.retire x.1) s
  let s := s.endOffersTo c
  let s := s.clearPort c
  let s := s.clearQueue c
  let s := s.setClient c { s.client c with pulse := Config.pulseTicks, tied := false }
  s.driveCrst c true

/-! ## Whether the engine takes claims -/

/-- RESET_N is high and the part is AWAKE or RESTING-PENDING: ticks come, samples are taken, and the engine
takes claims (8.3, R136, R162). -/
def State.running (s : State) : Bool :=
  !s.resetLow && decide (s.rest.part = .awake ∨ s.rest.part = .restingPending)

/-- The request a port holds. -/
def State.heldAt (s : State) (c : Client) : Option Request :=
  match (s.port c).state with
  | .held r => some r
  | .idle | .ready _ => none

/-- The held request whose turn it is: the first port that holds one, counting upward from the pointer (R20). -/
def State.nextRequest (s : State) : Option (Client × Request) :=
  [s.turn, s.turn + 1, s.turn + 2, s.turn + 3].findSome? (fun c => (s.heldAt c).map (fun r => (c, r)))

end Sys2Proof.Machine
end

