-- ==== Sys2Proof/Machine/Operands.lean ====
section
/-! DEFINITION. Reading request bodies: the codes of R180 and the form check of every request kind (R23, R61,
R92, R124, R167, R178, R181). A body of the wrong length or with a coded field outside its codes reads as
`none`, and the request is refused with BAD_ARGUMENT. -/

namespace Sys2Proof.Machine

/-! ## Codes -/

/-- A two-byte number, most significant byte first. -/
def number16 (hi lo : Byte) : Nat := hi.toNat * 256 + lo.toNat

/-- A handle: the slot in the upper six bits, the generation in the lower ten. Every encoding is a handle (R5). -/
def handleOfBytes (hi lo : Byte) : Handle :=
  { slot := ⟨hi.toNat / 4, by have := hi.isLt; omega⟩
    gen := BitVec.ofNat 10 (hi.toNat % 4 * 256 + lo.toNat) }

/-- A code below `n`. -/
def codeBelow (n : Nat) (b : Byte) : Option (Fin n) :=
  if h : b.toNat < n then some ⟨b.toNat, h⟩ else none

/-- A request level, HOLD 1 to FULL 3. -/
def levelOfCode (b : Byte) : Option Level :=
  match b.toNat with
  | 1 => some .hold
  | 2 => some .slow
  | 3 => some .full
  | _ => none

/-- A lapse action. -/
def lapseOfCode (b : Byte) : Option Lapse :=
  match b.toNat with
  | 0 => some .release
  | 1 => some .restart
  | _ => none

/-- A yes or no, an on or off, a present or absent. -/
def boolOfCode (b : Byte) : Option Bool :=
  match b.toNat with
  | 0 => some false
  | 1 => some true
  | _ => none

/-- An owner: client 0 to 3, or BOOT 4. -/
def ownerOfCode (b : Byte) : Option Owner :=
  if h : b.toNat < 4 then some (.client ⟨b.toNat, h⟩)
  else if b.toNat = 4 then some .boot else none

/-- A parent: 0 to 7, or none 8. -/
def parentOfCode (b : Byte) : Option (Option Dom) :=
  if h : b.toNat < 8 then some (some ⟨b.toNat, h⟩)
  else if b.toNat = 8 then some none else none

/-- A sense. -/
def senseOfCode (b : Byte) : Option Sense :=
  match b.toNat with
  | 0 => some .low
  | 1 => some .change
  | 2 => some .fall
  | 3 => some .rise
  | _ => none

/-- A number that must not be 0. -/
def positive (b : Byte) : Option Nat := if b.toNat = 0 then none else some b.toNat

/-! ## Bodies -/

/-- LEASE.TAKE (R26): the arguments of the new lease. -/
def takeArgs : List Byte → Option Template
  | [d, l, t1, t0, a, g1, g0, v] => do
    let domain ← codeBelow 8 d
    let level ← levelOfCode l
    let lapse ← lapseOfCode a
    let survives ← boolOfCode v
    some { domain := domain, level := level, term := number16 t1 t0, lapse := lapse
           survives := survives, tag := g1 ++ g0 }
  | _ => none

/-- LEASE.RENEW (R29): the handle and the new term, if present. -/
def renewArgs : List Byte → Option (Handle × Option Nat)
  | [h1, h0, p, t1, t0] => do
    let present ← boolOfCode p
    some (handleOfBytes h1 h0, if present then some (number16 t1 t0) else none)
  | _ => none

/-- LEASE.ALTER (R32): the handle and the new level. -/
def alterArgs : List Byte → Option (Handle × Level)
  | [h1, h0, l] => do
    let level ← levelOfCode l
    some (handleOfBytes h1 h0, level)
  | _ => none

/-- A body that is one handle (RELEASE, READ, REVOKE, WITHDRAW, ACCEPT). -/
def handleArgs : List Byte → Option Handle
  | [h1, h0] => some (handleOfBytes h1 h0)
  | _ => none

/-- A list filter (R38). -/
inductive Filter where
  /-- Every lease. -/
  | all
  /-- The leases of an owner. -/
  | owner (o : Owner)
  /-- The leases on a domain. -/
  | domain (d : Dom)
  deriving DecidableEq, Repr

/-- Whether a filter selects a lease (R38). -/
def Filter.selects (f : Filter) (l : Lease) : Bool :=
  match f with
  | .all => true
  | .owner o => decide (l.owner = o)
  | .domain d => decide (l.domain = d)

/-- A filter from its kind and value; the value of ALL is not looked at (R23, R38). -/
def filterOfCodes (k v : Byte) : Option Filter :=
  match k.toNat with
  | 0 => some .all
  | 1 => (ownerOfCode v).map .owner
  | 2 => (codeBelow 8 v).map .domain
  | _ => none

/-- LEASE.LIST (R38): the filter and the cursor. -/
def listArgs : List Byte → Option (Filter × Nat)
  | [k, v, c3, c2, c1, c0] => do
    let f ← filterOfCodes k v
    some (f, number16 c3 c2 * 65536 + number16 c1 c0)
  | _ => none

/-- LEASE.OFFER (R61): the handle, the target, and a window of 1 to 4095. -/
def offerArgs : List Byte → Option (Handle × Client × Nat)
  | [h1, h0, t, w1, w0] => do
    let target ← codeBelow 4 t
    let w := number16 w1 w0
    if 1 ≤ w ∧ w ≤ 4095 then some (handleOfBytes h1 h0, target, w) else none
  | _ => none

/-- The values LEASE.ADOPT gives the lease (R167). -/
structure AdoptTerms where
  /-- The term, 0 for untimed. -/
  term : Nat
  /-- The lapse action. -/
  lapse : Lapse
  /-- The tag. -/
  tag : BitVec 16
  /-- The survives-restart mark. -/
  survives : Bool
  deriving DecidableEq, Repr

/-- LEASE.ADOPT (R167): the handle and the new values. -/
def adoptArgs : List Byte → Option (Handle × AdoptTerms)
  | [h1, h0, t1, t0, a, g1, g0, v] => do
    let lapse ← lapseOfCode a
    let survives ← boolOfCode v
    some (handleOfBytes h1 h0,
      { term := number16 t1 t0, lapse := lapse, tag := g1 ++ g0, survives := survives })
  | _ => none

/-- The condition a WATCH.SET asks for. -/
structure WatchArgs where
  /-- The bank. -/
  bank : Fin 3
  /-- The mask, not 0. -/
  mask : BitVec 8
  /-- The sense. -/
  sense : Sense
  /-- The template. -/
  template : Template
  deriving DecidableEq, Repr

/-- WATCH.SET (R124): bank, mask, sense and template. -/
def watchSetArgs : List Byte → Option WatchArgs
  | [b, m, x, d, l, t1, t0, a, v, g1, g0] => do
    let bank ← codeBelow 3 b
    let _ ← positive m
    let sense ← senseOfCode x
    let domain ← codeBelow 8 d
    let level ← levelOfCode l
    let lapse ← lapseOfCode a
    let survives ← boolOfCode v
    some { bank := bank, mask := m, sense := sense
           template := { domain := domain, level := level, term := number16 t1 t0, lapse := lapse
                         survives := survives, tag := g1 ++ g0 } }
  | _ => none

/-- A body that is one code below `n`: a watch id, a domain or a target client. -/
def codeArgs (n : Nat) : List Byte → Option (Fin n)
  | [b] => codeBelow n b
  | _ => none

/-- DOMAIN.SETUP (R92): the domain and the whole new setup. -/
def setupArgs : List Byte → Option (Dom × Setup)
  | [d, p, n, r, e, g, x, m] => do
    let domain ← codeBelow 8 d
    let parent ← parentOfCode p
    let need ← levelOfCode n
    let ramp ← positive r
    let discharge ← positive x
    let monitor ← boolOfCode m
    some (domain, { parent := parent, need := need, ramp := ramp, settle := e.toNat, linger := g.toNat
                    discharge := discharge, monitor := monitor })
  | _ => none

/-- DOMAIN.DIVIDE (R94): the domain and an exponent of 1 to 8. -/
def divideArgs : List Byte → Option (Dom × Nat)
  | [d, k] => do
    let domain ← codeBelow 8 d
    if 1 ≤ k.toNat ∧ k.toNat ≤ 8 then some (domain, k.toNat) else none
  | _ => none

/-- CLIENT.QUOTA (R150): the target and a quota of 1 to 64. -/
def quotaArgs : List Byte → Option (Client × Nat)
  | [c, q] => do
    let target ← codeBelow 4 c
    if 1 ≤ q.toNat ∧ q.toNat ≤ 64 then some (target, q.toNat) else none
  | _ => none

/-- CLIENT.CLEARCAUSE (R178): the low four bits of the first byte; a missing byte reads as no marks. -/
def clearMarks (body : List Byte) : CauseFlags :=
  let b := body.headD 0
  { partStart := b.getLsbD 0, homeLost := b.getLsbD 1
    lapseRestart := b.getLsbD 2, orderedRestart := b.getLsbD 3 }

/-! ## Request kinds -/

/-- The request kinds in the order of their codes, from 1 (R181). -/
def reqKinds : List ReqKind :=
  [.leaseTake, .leaseRenew, .leaseAlter, .leaseRelease, .leaseRead, .leaseList, .leaseRevoke, .leaseOffer,
   .leaseWithdraw, .leaseAccept, .leaseAdopt, .watchSet, .watchDrop, .watchRead, .linesRead, .domainRead,
   .domainSetup, .domainDivide, .domainClear, .clientStatus, .clientClearCause, .clientQuota,
   .clientRestart, .superPass, .noticeFetch, .partIdent]

/-- The kind a kind byte names; outside 1 to 26 it names none (R171, R178). -/
def kindOfCode (b : Byte) : Option ReqKind :=
  match b.toNat with
  | 0 => none
  | n + 1 => reqKinds[n]?

/-- The code of a kind (R181). -/
def ReqKind.code (k : ReqKind) : Nat := reqKinds.idxOf k + 1

end Sys2Proof.Machine
end

