-- ==== Sys2Proof/Machine/Flags.lean ====
section
/-! DEFINITION. What a port puts on the wire: the CRC, the judgement of a request frame, the flags of an answer,
the codes of R180, the record images of R182 and the derived lease status and presence they carry. -/

namespace Sys2Proof.Machine

/-! ## CRC (R171) -/

/-- One bit of the CRC: shifted left, with the polynomial 07h added when a 1 is shifted out. -/
def crcBit (c : Byte) : Byte :=
  if c.getLsbD 7 then (c <<< 1) ^^^ 0x07#8 else c <<< 1

/-- One byte, most significant bit first. -/
def crcByte (c b : Byte) : Byte :=
  crcBit (crcBit (crcBit (crcBit (crcBit (crcBit (crcBit (crcBit (c ^^^ b))))))))

/-- The CRC of a sequence of bytes, from FFh. -/
def crc8 (bs : List Byte) : Byte := bs.foldl crcByte 0xFF#8

/-! ## The judgement of a request frame (R171) -/

/-- What a received frame is. -/
inductive Frame where
  /-- CS_N rose too early. -/
  | torn
  /-- Never held; the header and kind bytes as received. -/
  | bad (header kind : Byte)
  /-- A request. -/
  | good (r : Request)
  deriving DecidableEq, Repr

/-- The judgement of the bytes received after C3h. A frame too short for its length byte is torn (R171, R172), where R23
speaks of FRAME_ERROR: the model follows R171 (notes/assumptions 30). Such a frame whose kind byte is outside 1 to 26 fits
both the Torn and the Bad item of R171; that it is torn is the model's choice (notes/assumptions 34). -/
def judgeFrame (bytes : List Byte) : Frame :=
  match bytes with
  | h :: k :: len :: rest =>
    if Config.maxBody < len.toNat then .bad h k
    else if rest.length < len.toNat + 1 then .torn
    else if len.toNat + 1 < rest.length then .bad h k
    else if rest[len.toNat]? ≠ some (crc8 (h :: k :: len :: rest.take len.toNat)) then .bad h k
    else
      match kindOfCode k with
      | none => .bad h k
      | some kind => .good { seq := h.setWidth 4, kind := kind, body := rest.take len.toNat }
  | _ => .torn

/-! ## Encoding numbers and codes (R177, R180) -/

/-- A one-byte number. -/
def byteOf (n : Nat) : Byte := BitVec.ofNat 8 n

/-- A two-byte number, most significant byte first. -/
def bytes2 (n : Nat) : List Byte := [byteOf (n / 256), byteOf n]

/-- A four-byte number, most significant byte first. -/
def bytes4 (n : Nat) : List Byte := bytes2 (n / 65536) ++ bytes2 n

/-- A yes or no, on or off, set or clear. -/
def boolCode (b : Bool) : Byte := if b then 1 else 0

/-- A level, a demand or an effective level: OFF or none 0 to FULL 3. -/
def reachCode (r : Reach) : Byte := byteOf (reachRank r)

/-- A level. -/
def levelCode (l : Level) : Byte := reachCode (some l)

/-- A handle: slot in the upper six bits, generation in the lower ten. -/
def handleBytes (h : Handle) : List Byte := bytes2 (h.slot.1 * 1024 + h.gen.toNat)

/-- An owner. -/
def ownerCode : Owner → Byte
  | .client c => byteOf c.1
  | .boot => 4

/-- A lapse action. -/
def lapseCode : Lapse → Byte
  | .release => 0
  | .restart => 1

/-- A parent. -/
def parentCode : Option Dom → Byte
  | some d => byteOf d.1
  | none => 8

/-- A sense. -/
def senseCode : Sense → Byte
  | .low => 0
  | .change => 1
  | .fall => 2
  | .rise => 3

/-- A watch state. -/
def watchStateCode : WatchState → Byte
  | .armed => 0
  | .spent => 1

/-- A controller state. -/
def domStateCode : DomState → Byte
  | .off => 0
  | .powering => 1
  | .held => 2
  | .starting _ => 3
  | .slow => 4
  | .full => 5
  | .linger _ => 6
  | .discharge => 7
  | .fault => 8

/-- The held level of a controller state, absent outside STARTING and LINGER (R74). -/
def heldLevel : DomState → Reach
  | .starting r => some r.level
  | .linger l => some l
  | .off | .powering | .held | .slow | .full | .discharge | .fault => none

/-- A fault cause. -/
def causeCode : FaultCause → Byte
  | .none => 0
  | .ramp => 1
  | .loss => 2
  | .recheck => 3

/-- The cause flags in bits 0 to 3. -/
def causeBits (f : CauseFlags) : Byte :=
  byteOf (f.partStart.toNat + 2 * f.homeLost.toNat + 4 * f.lapseRestart.toNat + 8 * f.orderedRestart.toNat)

/-- A status byte (R177). -/
def Status.code : Status → Byte
  | .ok => 0
  | .empty => 1
  | .overrun => 2
  | .frameError => 3
  | .notReady => 4
  | .noAnswer => 5
  | .badArgument => 6
  | .stale => 7
  | .notOwner => 8
  | .notSupervisor => 9
  | .tableFull => 10
  | .quota => 11
  | .watchesFull => 12
  | .noWatch => 13
  | .bound => 14
  | .offerOpen => 15
  | .notOffered => 16
  | .self => 17
  | .domainBusy => 18
  | .cycle => 19
  | .notFaulted => 20

/-! ## Derived values -/

/-- The status of a lease (R15). -/
inductive LeaseStatus where
  /-- The domain does not provide the level. -/
  | pending
  /-- The domain provides the level. -/
  | granted
  /-- The domain is in FAULT. -/
  | faulted
  deriving DecidableEq, Repr

/-- The status of a lease at a level on a domain in a state (R15). -/
def leaseStatus (st : DomState) (l : Level) : LeaseStatus :=
  if st = .fault then .faulted
  else if reachRank (some l) ≤ reachRank (effLevel st) then .granted
  else .pending

/-- A lease status byte (R180). -/
def LeaseStatus.code : LeaseStatus → Byte
  | .pending => 0
  | .granted => 1
  | .faulted => 2

/-- The status of a lease as the table and the controllers stand (R16). -/
def State.statusOf (s : State) (l : Lease) : LeaseStatus := leaseStatus (s.ctrl l.domain).state l.level

/-- A presence (R139). -/
inductive Presence where
  /-- The home domain is cold. -/
  | absent
  /-- The home domain is warm and not running. -/
  | dormant
  /-- The home domain runs. -/
  | present
  deriving DecidableEq, Repr

/-- A client's presence from its home domain (R139). -/
def presenceOf (r : Ctrl) : Presence :=
  if r.cold then .absent
  else if reachRank (some .slow) ≤ reachRank (effLevel r.state) then .present
  else .dormant

/-- A presence byte (R180). -/
def Presence.code : Presence → Byte
  | .absent => 0
  | .dormant => 1
  | .present => 2

/-- A domain's demand as handed on: the greater of lease demand and derived demand (R76). -/
def Ctrl.demand (r : Ctrl) : Reach := reachMax r.leaseDemand r.derivedDemand

/-- The remaining term as an answer gives it: 0 for an untimed lease (R30, R37). -/
def Lease.remainingShown (l : Lease) : Nat := l.remaining.getD 0

/-! ## Record images (R182) -/

/-- The lease image, 23 bytes. -/
def State.leaseImage (s : State) (i : SlotNo) (l : Lease) : List Byte :=
  handleBytes (s.handleAt i) ++ bytes4 l.creation
    ++ [ownerCode l.owner, byteOf l.domain.1, levelCode l.level, (s.statusOf l).code]
    ++ bytes2 l.term ++ bytes2 l.remainingShown ++ [lapseCode l.lapse, boolCode l.survives]
    ++ bytes2 l.tag.toNat ++ [byteOf (l.binding.isSome.toNat + 2 * l.offer.isSome.toNat)]
    ++ [byteOf ((l.binding.map (fun w => w.1)).getD 0), byteOf ((l.offer.map (fun o => o.target.1)).getD 0)]
    ++ bytes2 ((l.offer.map Offer.window).getD 0)

/-- The template part of the watch image. -/
def templateBytes (t : Template) : List Byte :=
  [byteOf t.domain.1, levelCode t.level] ++ bytes2 t.term ++ [lapseCode t.lapse, boolCode t.survives]
    ++ bytes2 t.tag.toNat

/-- The watch image, 18 bytes. -/
def State.watchImage (s : State) (w : WatchId) (r : Watch) : List Byte :=
  let spent := decide (r.state = .spent)
  [byteOf w.1, byteOf r.owner.1, byteOf r.bank.1, r.mask, senseCode r.sense, watchStateCode r.state,
    byteOf r.slot.1] ++ templateBytes r.template ++ [byteOf (spent.toNat + 2 * r.mark.toNat)]
    ++ (if spent then handleBytes (s.handleAt r.slot) else [0, 0])

/-- The seven setup bytes (R181). -/
def setupBytes (x : Setup) : List Byte :=
  [parentCode x.parent, levelCode x.need, byteOf x.ramp, byteOf x.settle, byteOf x.linger,
    byteOf x.discharge, boolCode x.monitor]

/-- The domain image, 19 bytes (R91). -/
def State.domainImage (s : State) (d : Dom) : List Byte :=
  let r := s.ctrl d
  [byteOf d.1, domStateCode r.state, reachCode (heldLevel r.state), reachCode (effLevel r.state),
    reachCode r.demand, reachCode r.leaseDemand, reachCode r.derivedDemand, byteOf (s.leaseCount d),
    byteOf r.timer, boolCode r.cold, causeCode r.cause] ++ setupBytes r.setup ++ [byteOf r.divisor]

/-- A notice kind byte, 1 to 10 (R182). -/
def NoticeKind.code : NoticeKind → Byte
  | .granted => 1
  | .ungranted => 2
  | .faulted => 3
  | .lapsed => 4
  | .revoked => 5
  | .offered => 6
  | .offerEnded => 7
  | .watchFired => 8
  | .domainFault => 9
  | .bootLapsed => 10

/-- The two subject bytes (R182). -/
def subjectBytes : Subject → List Byte
  | .lease h => handleBytes h
  | .watch w => [0, byteOf w.1]
  | .domain d => [0, byteOf d.1]

/-- The reason byte of OFFER_ENDED (R182). -/
def OfferEnd.code : OfferEnd → Byte
  | .accepted => 1
  | .expired => 2
  | .targetGone => 3

/-- The detail bytes of a kind, filled up to five with 0 (R182). -/
def detailBytes : Detail → List Byte
  | .level d l => [byteOf d.1, levelCode l, 0, 0, 0]
  | .cause d c => [byteOf d.1, causeCode c, 0, 0, 0]
  | .offered c d l w => [byteOf c.1, byteOf d.1, levelCode l] ++ bytes2 w
  | .ended c w => [byteOf c.1, w.code, 0, 0, 0]
  | .handle h => handleBytes h ++ [0, 0, 0]
  | .fault c => [causeCode c, 0, 0, 0, 0]
  | .boot h l => handleBytes h ++ [levelCode l, 0, 0]

/-- The notice image, 9 bytes. -/
def noticeImage (e : Entry) : List Byte :=
  [e.kind.code] ++ subjectBytes e.subject ++ detailBytes e.detail ++ [byteOf e.count]

/-! ## Answers (R174 to R176) -/

/-- The flags byte (R180). -/
def Flags.code (f : Flags) : Byte :=
  byteOf (f.priorDiscarded.toNat + 2 * f.busyDrop.toNat + 4 * f.torn.toNat + 8 * f.replay.toNat
    + 16 * f.attn.toNat)

/-- The flags an answer formed now at a port carries: the pending flags and ATTN (R176). -/
def State.flagsNow (s : State) (c : Client) (replay : Bool) : Flags :=
  { priorDiscarded := (s.port c).priorDiscarded, busyDrop := (s.port c).busyDrop, torn := (s.port c).torn
    replay := replay, attn := (s.queue c).attn }

/-- A port record with its pending flags cleared (R176). -/
def Port.flagsCleared (p : Port) : Port :=
  { p with priorDiscarded := false, busyDrop := false, torn := false }

/-- The bytes of an answer frame, CRC included (R175). -/
def answerFrame (a : Answer) : List Byte :=
  let bs := [a.status.code, a.flags.code, a.seqEcho, a.kindEcho, byteOf a.body.length] ++ a.body
  bs ++ [crc8 bs]

end Sys2Proof.Machine
end

