-- ==== Sys2Proof/Machine/Control.lean ====
section
/-! DEFINITION. The domain controllers and the Dependency Logic: the passages between controller states (05),
derived demand, permission and the forced stop (06), and the entry into FAULT (07). A passage changes the
controller, its outputs and the queues; `State.event` adds what every controller event ends with. -/

namespace Sys2Proof.Machine

/-! ## The record -/

/-- A controller's record changed by `f`. -/
def State.modCtrl (d : Dom) (f : Ctrl → Ctrl) (s : State) : State := s.setCtrl d (f (s.ctrl d))

/-- A domain in a state with its timer loaded (R77). -/
def State.enter (d : Dom) (st : DomState) (timer : Nat) (s : State) : State :=
  s.modCtrl d (fun r => { r with state := st, timer := timer })

/-- The cold flag set or cleared (R89). -/
def State.setCold (d : Dom) (v : Bool) (s : State) : State := s.modCtrl d (fun r => { r with cold := v })

/-- The demand on a domain (R76). -/
def State.demand (s : State) (d : Dom) : Reach := (s.ctrl d).demand

/-- The DCLK rate of a running level (R87). -/
def State.rate (s : State) (d : Dom) : Run → Dclk
  | .slow => .divided (s.ctrl d).divisor
  | .full => .undivided

/-! ## The Dependency Logic (R95 to R98) -/

/-- Whether the parent permits the domain to start (R80, R95). -/
def State.permits (s : State) (d : Dom) : Bool :=
  match (s.ctrl d).setup.parent with
  | none => true
  | some p => decide (reachRank (some (s.ctrl d).setup.need) ≤ reachRank (effLevel (s.ctrl p).state))

/-- Whether a child is to be counted toward its parent, as its state and demand stand (R97). -/
def Ctrl.counted (r : Ctrl) : Bool :=
  decide (r.state ≠ .fault) && (isStarted r.state || decide (reachRank (some .slow) ≤ reachRank r.demand))

/-- The highest need among the counted children of a domain (R97), each counted as the Dependency Logic last handed
it on: at the end of an event of that child, or of a take that moved its lease demand (R98; notes/assumptions 8). -/
def State.derivedFrom (s : State) (p : Dom) : Reach :=
  (List.finRange 8).foldl
    (fun m c =>
      if (s.ctrl c).setup.parent = some p ∧ (s.ctrl c).counts = true then reachMax m (some (s.ctrl c).setup.need)
      else m)
    none

/-- Whether a domain is counted toward its parent, taken as its state and demand now stand (R97, R98). -/
def State.recount (d : Dom) (s : State) : State := s.modCtrl d (fun r => { r with counts := r.counted })

/-- A controller handed new demands: a demand change waits where the greater of the two moved (R76, R98). -/
def Ctrl.hand (r : Ctrl) (lease derived : Reach) : Ctrl :=
  { r with leaseDemand := lease, derivedDemand := derived
           demandPending := r.demandPending || decide (reachMax lease derived ≠ r.demand) }

/-- A parent handed its derived demand anew (R98). -/
def State.recompute (p : Dom) (s : State) : State :=
  s.modCtrl p (fun r => r.hand r.leaseDemand (s.derivedFrom p))

/-- The parent of a domain, if any, handed its derived demand anew (R98). -/
def State.recomputeParent (d : Dom) (s : State) : State :=
  match (s.ctrl d).setup.parent with
  | some p => s.recompute p
  | none => s

/-- Whether the domain's effective level crossed the need between two effective levels (R99). -/
def crosses (need : Level) (before after : Reach) : Bool :=
  decide (reachRank (some need) ≤ reachRank before) != decide (reachRank (some need) ≤ reachRank after)

/-- A parent change handed to the child `c` of `d` whose need the level of `d` has crossed (R99). -/
def State.tellChild (d : Dom) (before : Reach) (s : State) (c : Dom) : State :=
  if (s.ctrl c).setup.parent = some d
      ∧ crosses (s.ctrl c).setup.need before (effLevel (s.ctrl d).state) = true then
    s.modCtrl c (fun r => { r with parentPending := true })
  else s

/-- A parent change handed to every child whose need the level of `d` has crossed (R99). -/
def State.tellChildren (d : Dom) (before : Reach) (s : State) : State :=
  (List.finRange 8).foldl (State.tellChild d before) s

/-- What the Dependency Logic and Client Control are handed at the end of a change of domain `d`: the children their
parent changes, the parent its derived demand, the home client its CRST_N (R98, R99, R140). The parent only receives the
demand here, in the step that starts a child too (R100), and acts on it in an event of its own: that the cancel of its
linger is another command than the start is the model's choice (notes/assumptions 33). -/
def State.handNeighbours (d : Dom) (before : Reach) (s : State) : State :=
  (((s.tellChildren d before).recount d).recomputeParent d).syncHome d

/-! ## Falling (R84 to R86) -/

/-- Into DISCHARGE: cold, DRST_N asserted, PEN removed (R86, R88). -/
def State.toDischarge (d : Dom) (s : State) : State :=
  (((s.enter d .discharge (s.ctrl d).setup.discharge).setCold d true).driveDrst d true).drivePen d false

/-- Into LINGER at HOLD; a linger of 0 ends at once in DISCHARGE (R77, R84, R85). -/
def State.toLingerHold (d : Dom) (s : State) : State :=
  let s := s.enter d (.linger .hold) (s.ctrl d).setup.linger
  if (s.ctrl d).timer = 0 then s.toDischarge d else s

/-! ## Forced stop (R104 to R106) -/

/-- UNGRANTED to the owner of each lease that the stop takes below its level, in ascending creation number
(R106). -/
def State.tellUngranted (d : Dom) (before : Reach) (s : State) : State :=
  (s.leases.filter (fun x => decide (x.2.domain = d) && decide (1 < reachRank (some x.2.level))
      && decide (reachRank (some x.2.level) ≤ reachRank before))).foldl
    (fun t x => t.notifyOwner x.2.owner .ungranted (.lease (s.handleAt x.1)) (.level d .hold)) s

/-- One domain stopped to HELD: isolation asserted, clock stopped, UNGRANTED sent; a demand of none goes on to
LINGER at HOLD. No start follows, since the parent does not permit (R104). UNGRANTED belongs to this passage and comes
before what a demand of none leads on to (R76, R106). That CRST_N of a stopped home child which goes cold, one without
demand and with a linger of 0, changes at the end of its own stop and not of the parent's event is the model's choice
(notes/assumptions 31). -/
def State.stopOne (d : Dom) (s : State) : State :=
  let before := effLevel (s.ctrl d).state
  let s := (s.driveIso d true).driveDclk d .stopped
  let s := s.enter d .held 0
  let s := s.tellUngranted d before
  let s := if s.demand d = none then s.toLingerHold d else s
  s.handNeighbours d before

/-- The children of `d` that have lost its permission stopped in ascending number, each child's own subtree
before the next child (R104, R105). A path stops each domain once, so eight levels are enough. -/
def State.stopChildren : Nat → Dom → State → State
  | 0, _, s => s
  | fuel + 1, d, s =>
    (List.finRange 8).foldl
      (fun t c =>
        if (t.ctrl c).setup.parent = some d ∧ isStarted (t.ctrl c).state = true ∧ t.permits c = false then
          (t.stopOne c).stopChildren fuel c
        else t)
      s

/-! ## FAULT (R113 to R115) -/

/-- The home-lost event raised for the client whose home `d` is (R89). -/
def State.raiseHomeLost (d : Dom) (s : State) : State :=
  match homeClient d with
  | some c => s.setClient c { s.client c with homeLostPending := (s.client c).homeLostPending + 1 }
  | none => s

/-- DOMAIN_FAULT to the supervisor, then FAULTED to the owner of each lease on the domain in ascending creation
number (R114). -/
def State.tellFault (d : Dom) (cause : FaultCause) (s : State) : State :=
  (s.leases.filter (fun x => decide (x.2.domain = d))).foldl
    (fun t x => t.notifyOwner x.2.owner .faulted (.lease (s.handleAt x.1)) (.cause d cause))
    (s.notify s.supervisor .domainFault (.domain d) (.fault cause))

/-- The four outputs dropped in the order for entry into FAULT (R88). -/
def State.dropOutputs (d : Dom) (s : State) : State :=
  (((s.driveIso d true).driveDclk d .stopped).driveDrst d true).drivePen d false

/-- Into FAULT with a cause: outputs, record, notices, the stop of the children, the home-lost event, in the
order of R113 to R115. -/
def State.toFault (d : Dom) (cause : FaultCause) (s : State) : State :=
  let s := s.dropOutputs d
  let s := s.modCtrl d (fun r => { r with state := .fault, timer := 0, cold := true, cause := cause })
  let s := s.tellFault d cause
  let s := s.stopChildren 8 d
  s.raiseHomeLost d

/-! ## Rising (R79 to R82) -/

/-- GRANTED to the owner of each lease on the domain whose level the effective level now meets and `before` did not, in
ascending creation number (R90). -/
def State.tellGranted (d : Dom) (before : Reach) (s : State) : State :=
  match effLevel (s.ctrl d).state with
  | none => s
  | some now =>
    (s.leases.filter (fun x => decide (x.2.domain = d) && decide (reachRank before < reachRank (some x.2.level))
        && decide (reachRank (some x.2.level) ≤ reachRank (some now)))).foldl
      (fun t x => t.notifyOwner x.2.owner .granted (.lease (s.handleAt x.1)) (.level d now)) s

/-- The settle end: the recheck with monitor-in-hold off, then DRST_N and ISO_N released, the domain warm and
in the running level (R82, R88, R111). -/
def State.completeStart (d : Dom) (run : Run) (s : State) : State :=
  if (s.ctrl d).setup.monitor = false ∧ (s.ctrl d).pgood = false then s.toFault d .recheck
  else ((((s.driveDrst d false).setCold d false).driveIso d false).enter d run.state 0)

/-- Into STARTING toward a running level: DCLK started; a settle time of 0 ends at once (R77, R81). -/
def State.toStarting (d : Dom) (run : Run) (s : State) : State :=
  let s := s.driveDclk d (s.rate d run)
  let s := s.enter d (.starting run) (s.ctrl d).setup.settle
  if (s.ctrl d).timer = 0 then s.completeStart d run else s

/-- A domain in HELD compares its demand (R80). -/
def State.heldCompare (d : Dom) (s : State) : State :=
  match s.demand d with
  | none => s.toLingerHold d
  | some .hold => s
  | some .slow => if s.permits d then s.toStarting d .slow else s
  | some .full => if s.permits d then s.toStarting d .full else s

/-- Into HELD, and on as the demand directs (R80). -/
def State.toHeld (d : Dom) (s : State) : State := (s.enter d .held 0).heldCompare d

/-- From POWERING to HELD, and on as the demand directs (R79, R80). Each passage makes its own notices (R76): where HOLD is
the level the event ends on, GRANTED belongs to this passage and comes before DCLK starts; where a start follows that ends
within the event, each lease is granted once, at the level of that start (R90; notes/assumptions 31). -/
def State.endPowering (d : Dom) (s : State) : State :=
  let s := s.enter d .held 0
  let t := s.heldCompare d
  if effLevel (t.ctrl d).state = some .hold then (s.tellGranted d none).heldCompare d else t

/-- Into POWERING: PEN asserted; a PGOOD already present ends the ramp at once (R79). -/
def State.toPowering (d : Dom) (s : State) : State :=
  let s := s.drivePen d true
  let s := (s.enter d .powering (s.ctrl d).setup.ramp).setCold d true
  if (s.ctrl d).pgood then s.endPowering d else s

/-- Into OFF from DISCHARGE: the home-lost event, then the demand as it stands (R78, R86, R89). -/
def State.toOff (d : Dom) (s : State) : State :=
  let s := ((s.enter d .off 0).setCold d true).raiseHomeLost d
  if s.demand d = none then s else s.toPowering d

/-! ## Running levels and lingers (R83 to R85) -/

/-- From a running level, or a linger at one, to HELD: isolation asserted, clock stopped (R88). -/
def State.leaveRunning (d : Dom) (s : State) : State :=
  ((s.driveIso d true).driveDclk d .stopped).toHeld d

/-- Into SLOW or FULL from the other running level or a linger, at its rate (R83, R84, R85). -/
def State.toRun (d : Dom) (run : Run) (s : State) : State :=
  (s.enter d run.state 0).driveDclk d (s.rate d run)

/-- The end of a linger, or its cancel where the demand stands at or above the held level: the domain goes
to its demand as it stands (R84, R85). -/
def State.leaveLinger (d : Dom) (held : Level) (s : State) : State :=
  match held, s.demand d with
  | .hold, none => s.toDischarge d
  | .hold, some _ => s.toHeld d
  | _, some .full => s.toRun d .full
  | _, some .slow => s.toRun d .slow
  | _, some .hold => s.leaveRunning d
  | _, none => s.leaveRunning d

/-- Into LINGER at a running level; a linger of 0 ends at once (R77, R84). -/
def State.toLingerRun (d : Dom) (run : Run) (s : State) : State :=
  let s := s.enter d (.linger run.level) (s.ctrl d).setup.linger
  if (s.ctrl d).timer = 0 then s.leaveLinger d run.level else s

/-! ## The controller's answer to a demand change (R78 to R86, R116) -/

/-- The step a demand change makes from the present state. -/
def State.demandStep (d : Dom) (s : State) : State :=
  match (s.ctrl d).state, s.demand d with
  | .off, none => s
  | .off, some _ => s.toPowering d
  | .powering, _ => s
  | .held, _ => s.heldCompare d
  | .starting _, some .slow => (s.modCtrl d (fun r => { r with state := .starting .slow })).driveDclk d (s.rate d .slow)
  | .starting _, some .full => (s.modCtrl d (fun r => { r with state := .starting .full })).driveDclk d (s.rate d .full)
  | .starting _, _ => (s.driveDclk d .stopped).toHeld d
  | .slow, some .full => s.toRun d .full
  | .slow, some .slow => s
  | .slow, _ => s.toLingerRun d .slow
  | .full, some .full => s
  | .full, _ => s.toLingerRun d .full
  | .linger l, m => if reachRank (some l) ≤ reachRank m then s.leaveLinger d l else s
  | .discharge, _ => s
  | .fault, _ => s

/-! ## A controller event (R76, R90) -/

/-- One whole controller event: its passages with their output changes and notices, then what the neighbours are handed,
CRST_N of the home client among it (R76, R140). A rise to a running level is the last passage of its event, so its GRANTED
notices come once the passages are made; a rise to HOLD, which is that from POWERING, has made its own (R90). That in one
passage the outputs change before the notices reach the queues and move ATTN_N is the model's choice (R160;
notes/assumptions 31). -/
def State.event (d : Dom) (passage : State → State) (s : State) : State :=
  let before := effLevel (s.ctrl d).state
  let s := passage s
  let s := if effLevel (s.ctrl d).state = some .hold then s else s.tellGranted d before
  s.handNeighbours d before

/-! ## The hand-over at the end of a take (R18) -/

/-- One domain handed its lease demand. -/
def State.handLease (s : State) (d : Dom) : State :=
  s.modCtrl d (fun r => r.hand (s.tableDemand d) r.derivedDemand)

/-- Every domain whose lease demand the take changed is handed its new one; then each of them is counted anew, and
each one's parent is handed its derived demand (R18, R98). The events of the child and of the parent that follow are
separate commands (R76; notes/assumptions 33). -/
def State.handOn (s : State) : State :=
  let moved := (List.finRange 8).filter (fun d => decide (s.tableDemand d ≠ (s.ctrl d).leaseDemand))
  let s := moved.foldl (fun t d => t.recount d) (moved.foldl State.handLease s)
  moved.foldl (fun t d => t.recomputeParent d) s

end Sys2Proof.Machine
end

