-- ==== Sys2Proof/Machine/Rest.lean ====
section
/-! DEFINITION. Rest Control: the three rest conditions, what wakes the part from QUIET, and the judgement that
ends every step (R132 to R136). -/

namespace Sys2Proof.Machine

/-- Whether a port holds a request (R132). -/
def State.anyHeld (s : State) : Bool := (List.finRange 4).any (fun c => (s.heldAt c).isSome)

/-- Whether a claim waits at the engine: a held request, or an internal claim raised and not yet taken (R132). -/
def State.claimWaits (s : State) : Bool :=
  s.anyHeld || !s.termClaims.isEmpty || !s.windowClaims.isEmpty || s.adoptionMark
    || (List.finRange 16).any (fun w => ((s.watch w).map Watch.mark).getD false)

/-- Whether every domain controller is in OFF (R132). -/
def State.allOff (s : State) : Bool := (List.finRange 8).all (fun d => decide ((s.ctrl d).state = .off))

/-- The three rest conditions together (R132). -/
def State.restConditions (s : State) : Bool := !s.hasLease && s.allOff && !s.claimWaits

/-- Whether an ARMED watch wakes the part: a LOW watch by the level of a masked line, a CHANGE watch by the latch
of one (R134). -/
def wakes (u : WakeUnit) (r : Watch) : Bool :=
  match r.state, r.sense with
  | .armed, .low => decide (r.mask &&& ~~~ bankOf r.bank u.lines ≠ 0)
  | .armed, .change => decide (r.mask &&& bankOf r.bank u.latches ≠ 0)
  | _, _ => false

/-- Whether anything wakes the part from QUIET (R134). -/
def State.wakeCondition (s : State) : Bool :=
  s.anyHeld || (List.finRange 16).any (fun w => ((s.watch w).map (wakes s.wake)).getD false)

/-- Rest Control put into a part state with its timer loaded. -/
def State.enterPart (p : PartState) (timer : Nat) (s : State) : State :=
  { s with rest := { s.rest with part := p, timer := timer } }

/-- The judgement of Rest Control at the end of an event: into RESTING-PENDING when the conditions hold
together, back to AWAKE when one stops holding, out of QUIET when something wakes the part; nothing shortens
WAKING, and nothing is judged while RESET_N is low (R132 to R137). -/
def State.judgeRest (s : State) : State :=
  if s.resetLow then s
  else
    match s.rest.part with
    | .awake => if s.restConditions then s.enterPart .restingPending Config.restDelay else s
    | .restingPending => if s.restConditions then s else s.enterPart .awake 0
    | .quiet => if s.wakeCondition then s.enterPart .waking Config.wakingPeriods else s
    | .waking => s

/-! ## The frame of a step -/

/-- The outcome of a command. -/
abbrev Result : Type := Host.Outcome State Fault Refusal

/-- An event of the part: where it can happen (`can`), the record of output changes is opened, the event
changes the state, and Rest Control judges the end; where it cannot, the command names no event of the part and
nothing changes. -/
def State.occur (can : Bool) (event : State → State) (s : State) : Result :=
  if can then .next (event s.begin).judgeRest else .next s

/-- A claim taken by the engine: an event that ends with the lease demands it changed handed on (R18, R19). -/
def State.claim (can : Bool) (take : State → State) (s : State) : Result :=
  s.occur (s.running && can) (fun t => (take t).handOn)

end Sys2Proof.Machine
end

