-- ==== Sys2Proof/Machine/DomainEvents.lean ====
section
/-! DEFINITION. The events that reach a domain controller: demand and parent changes, power-good changes and the
steps of timer ends (chapters 5 to 7). -/

namespace Sys2Proof.Machine

/-! ## Demand changes and parent changes -/

/-- DEMAND_CHANGE (R76): the controller acts on the demand as it stands. One that still waits when the part goes to
QUIET waits for AWAKE, since every domain stays in OFF until then (R136; notes/assumptions 15). One at a parent that
lingers cancels its linger (R84) apart from the command that starts the child (R100; notes/assumptions 33). -/
def execDemandChange (d : Dom) (s : State) : Result :=
  s.occur (s.running && (s.ctrl d).demandPending) (fun t =>
    (t.modCtrl d (fun r => { r with demandPending := false })).event d (State.demandStep d))

/-- The step of a parent change: only a domain in HELD looks at it (R80, R99). -/
def State.parentStep (d : Dom) (s : State) : State :=
  if (s.ctrl d).state = .held then s.heldCompare d else s

/-- PARENT_CHANGE (R99). -/
def execParentChange (d : Dom) (s : State) : Result :=
  s.occur (!s.resetLow && (s.ctrl d).parentPending) (fun t =>
    (t.modCtrl d (fun r => { r with parentPending := false })).event d (State.parentStep d))

/-! ## Power good -/

/-- The PGOOD input at a level. -/
def State.setPgood (d : Dom) (v : Bool) (s : State) : State := s.modCtrl d (fun r => { r with pgood := v })

/-- The step of a PGOOD that becomes present: it ends the ramp (R79, R108). -/
def State.pgoodStep (d : Dom) (s : State) : State :=
  if (s.ctrl d).state = .powering then s.endPowering d else s

/-- PGOOD_PRESENT (R79), which follows a loss that still waits. While RESET_N is low only the input moves. -/
def execPgoodPresent (d : Dom) (s : State) : Result :=
  s.occur (!(s.ctrl d).pgood && !(s.ctrl d).lossPending) (fun t =>
    let t := t.setPgood d true
    if t.resetLow then t else t.event d (State.pgoodStep d))

/-- Whether a loss of PGOOD is a LOSS fault in a controller state (R108). -/
def lossFaults (monitor : Bool) : DomState → Bool
  | .starting _ | .slow | .full | .linger .slow | .linger .full => true
  | .held | .linger .hold => monitor
  | .off | .powering | .discharge | .fault => false

/-- The step of a loss of PGOOD (R108, R110). -/
def State.lossStep (d : Dom) (s : State) : State :=
  if lossFaults (s.ctrl d).setup.monitor (s.ctrl d).state then s.toFault d .loss else s

/-- The mark of a loss that waits set or cleared. -/
def State.setLoss (d : Dom) (v : Bool) (s : State) : State := s.modCtrl d (fun r => { r with lossPending := v })

/-- Whether a PGOOD_LOSS can come: PGOOD is present, or its fall waits to be judged. -/
def Ctrl.losing (r : Ctrl) (ahead : Bool) : Bool := r.pgood || (r.lossPending && !ahead)

/-- PGOOD_LOSS (R110): the level falls and the controller judges the loss in its state. Ahead of another event at the
controller only the level falls, and the loss waits: the state which that event reaches judges it (R112;
notes/assumptions 29). While RESET_N is low only the input moves. -/
def execPgoodLoss (fall : PgoodFall) (s : State) : Result :=
  let d := fall.domain
  s.occur ((s.ctrl d).losing fall.ahead) (fun t =>
    let t := t.setPgood d false
    if t.resetLow then t
    else if fall.ahead then t.setLoss d true
    else (t.setLoss d false).event d (State.lossStep d))

/-! ## Timer ends -/

/-- Whether a controller state has a running timer (R77). -/
def timed : DomState → Bool
  | .powering | .starting _ | .linger _ | .discharge => true
  | .off | .held | .slow | .full | .fault => false

/-- The step of a timer end, in the state that the timer serves: the ramp end with PGOOD absent (R109), the settle end
(R82), the linger end (R85) and the discharge end (R86). -/
def State.endStep (d : Dom) (s : State) : State :=
  match (s.ctrl d).state with
  | .powering => if (s.ctrl d).pgood then s else s.toFault d .ramp
  | .starting run => s.completeStart d run
  | .linger l => s.leaveLinger d l
  | .discharge => s.toOff d
  | .off | .held | .slow | .full | .fault => s

/-- A controller whose timer has run out makes its timed step, as an event of its own (R77). -/
def State.endTimer (s : State) (d : Dom) : State :=
  if timed (s.ctrl d).state = true ∧ (s.ctrl d).timer = 0 then s.event d (State.endStep d) else s

/-! ## Events that wait -/

/-- Whether a passage takes a warm domain to a cold state (R89). -/
def State.cooledBy (d : Dom) (passage : State → State) (s : State) : Bool :=
  !(s.ctrl d).cold && ((passage s).ctrl d).cold

/-- Whether an event that waits at the controller makes its warm domain cold (R89, R141). -/
def State.coldWaits (d : Dom) (s : State) : Bool :=
  ((s.ctrl d).demandPending && s.cooledBy d (State.demandStep d))
    || ((s.ctrl d).parentPending && s.cooledBy d (State.parentStep d))
    || ((s.ctrl d).lossPending && s.cooledBy d (State.lossStep d))

end Sys2Proof.Machine
end

