-- ==== Sys2Proof/Machine/Engine.lean ====
section
/-! DEFINITION. The take of a port request: the port turn, the reply of a request kind, and the answer that is
formed and stored (R19, R20, R174, R176). -/

namespace Sys2Proof.Machine

/-- What the rule of a request kind gives: a status, the body of an OK answer, and the changed state. -/
structure Reply where
  /-- The status. -/
  status : Status
  /-- The body, which only an OK answer carries. -/
  body : List Byte
  /-- The state with the changes of the request made. -/
  state : State
  deriving DecidableEq, Repr

/-- A refusal: nothing changes and the body is empty (R24). -/
def refuse (status : Status) (s : State) : Reply := { status := status, body := [], state := s }

/-- An accepted request. -/
def accept (body : List Byte) (s : State) : Reply := { status := .ok, body := body, state := s }

/-- The answer to a taken request (R174, R176). -/
def Reply.answer (p : Client) (r : Request) (y : Reply) : Answer :=
  { status := y.status, flags := y.state.flagsNow p false, seqEcho := r.seq.setWidth 8
    kindEcho := byteOf r.kind.code, body := if y.status = .ok then y.body else [] }

/-- An answer stored as the waiting answer and as the saved answer, with the sequence memory set and the pending
flags cleared (R174, R176). -/
def State.storeAnswer (p : Client) (seq : BitVec 4) (a : Answer) (s : State) : State :=
  s.setPort p { (s.port p).flagsCleared with state := .ready a, saved := some a, memory := some seq }

/-- The port turn moved on past a port (R20). -/
def State.passTurn (p : Client) (s : State) : State := { s with turn := p + 1 }

/-- A request of port `p` taken: its rule, then the answer, then the turn (R19, R20). -/
def State.serve (rule : Client → List Byte → State → Reply) (p : Client) (r : Request) (s : State) : State :=
  let y := rule p r.body s
  (y.state.storeAnswer p r.seq (y.answer p r)).passTurn p

/-- The engine takes the request whose turn it is, if it is of this kind. -/
def State.take (kind : ReqKind) (rule : Client → List Byte → State → Reply) (s : State) : Result :=
  match s.nextRequest with
  | some (p, r) => s.claim (decide (r.kind = kind)) (State.serve rule p r)
  | none => .next s

/-! ## Checks that several requests share -/

/-- The handle check: the lease the handle names, or STALE (R5). -/
def withLease (h : Handle) (s : State) (k : Lease → Reply) : Reply :=
  match s.named h with
  | none => refuse .stale s
  | some l => k l

/-- The handle check and the owner check (R5, R25). -/
def withOwned (c : Client) (h : Handle) (s : State) (k : Lease → Reply) : Reply :=
  withLease h s (fun l => if l.owner = .client c then k l else refuse .notOwner s)

/-- The check of the supervisor role at the take (R151). -/
def withRole (c : Client) (s : State) (k : Reply) : Reply :=
  if s.supervisor = c then k else refuse .notSupervisor s

/-- The form check (R23). -/
def withForm {α : Type} (args : Option α) (s : State) (k : α → Reply) : Reply :=
  match args with
  | none => refuse .badArgument s
  | some a => k a

/-- The quota check of a claim that raises the client's charge (R13). -/
def withQuota (c : Client) (s : State) (k : Reply) : Reply :=
  if s.charge c < (s.client c).quota then k else refuse .quota s

end Sys2Proof.Machine
end

