-- ==== Sys2Proof/Machine/Expiry.lean ====
section
/-! DEFINITION. The takes of the Term Timer's claims: lease terms (chapter 3), offer windows (chapter 4) and the adoption
window (chapter 11). The ticks that raise the claims are in Timebase.lean. -/

namespace Sys2Proof.Machine

/-! ## Lease terms -/

/-- A lapse with action RELEASE: retired, and the owner told (R51). -/
def State.lapseRelease (h : Handle) (l : Lease) (s : State) : State :=
  (s.retire h.slot).notifyOwner l.owner .lapsed (.lease h) (.level l.domain l.level)

/-- A lapse with action RESTART: retired without notice, and the owner restarted (R52). -/
def State.lapseRestart (h : Handle) (l : Lease) (s : State) : State :=
  match l.owner with
  | .client c => (s.retire h.slot).restart c (fun f => { f with lapseRestart := true })
  | .boot => s.retire h.slot

/-- A lease lapsed by its action as it stands (R50). -/
def State.lapse (h : Handle) (l : Lease) (s : State) : State :=
  match l.lapse with
  | .release => s.lapseRelease h l
  | .restart => s.lapseRestart h l

/-- The take of a lease-term expiry claim: the claim and its mark are gone, and a lease still valid, timed and at
remaining 0 lapses (R50). -/
def State.takeTerm (h : Handle) (s : State) : State :=
  let s := { s with termClaims := s.termClaims.erase h }
  match s.named h with
  | none => s
  | some l =>
    if l.term ≠ 0 ∧ l.remaining = some 0 then s.lapse h l
    else s.putLease h.slot { l with expiryMark := false }

/-- LEASE_TERM_EXPIRY (R50). -/
def execLeaseTermExpiry (h : Handle) (s : State) : Result :=
  s.claim (decide (h ∈ s.termClaims)) (State.takeTerm h)

/-! ## Offer windows -/

/-- The take of an offer-window expiry claim: the claim and its mark are gone, and an offer whose window stands at
0 is ended with OFFER_ENDED(EXPIRED) to the owner (R68). -/
def State.takeWindow (h : Handle) (s : State) : State :=
  let s := { s with windowClaims := s.windowClaims.erase h }
  match s.named h with
  | none => s
  | some l =>
    match l.offer with
    | some o =>
      if o.window = 0 then
        (s.putLease h.slot { l with offer := none, windowMark := false }).notifyOwner l.owner .offerEnded
          (.lease h) (.ended o.target .expired)
      else s.putLease h.slot { l with windowMark := false }
    | none => s.putLease h.slot { l with windowMark := false }

/-- OFFER_WINDOW_EXPIRY (R68). -/
def execOfferWindowExpiry (h : Handle) (s : State) : Result :=
  s.claim (decide (h ∈ s.windowClaims)) (State.takeWindow h)

/-! ## The adoption window -/

/-- One boot lease lapsed, and the supervisor told (R166). -/
def State.lapseBoot (s : State) (x : SlotNo × Lease) : State :=
  (s.retire x.1).notify s.supervisor .bootLapsed (.domain x.2.domain) (.boot (s.handleAt x.1) x.2.level)

/-- The take of the adoption-window expiry claim: every lease still owned by BOOT lapses, in ascending creation
number, and the count is removed (R166). -/
def State.takeAdoption (s : State) : State :=
  let s := { s with adoptionMark := false }
  if s.adoption = some 0 ∧ s.hasBoot = true then
    { (s.leases.filter (fun x => decide (x.2.owner = .boot))).foldl State.lapseBoot s with adoption := none }
  else s

/-- ADOPTION_WINDOW_EXPIRY (R166). -/
def execAdoptionWindowExpiry (s : State) : Result := s.claim s.adoptionMark State.takeAdoption

end Sys2Proof.Machine
end

