-- ==== Sys2Proof/Machine/Timebase.lean ====
section
/-! DEFINITION. The time base: the tick with all that it ends, and the names of those ends (chapters 3 to 5, 8, 9 and 11);
the samples, the wake lines and the end of WAKING (chapter 8). -/

namespace Sys2Proof.Machine

/-! ## The tick -/

/-- Whether a tick brings the lease's remaining term from 1 to 0 with no claim raised: a client's lease alone raises one
(R49). -/
def Lease.termEnds (l : Lease) : Bool := decide (l.owner ≠ .boot ∧ l.remaining = some 1) && !l.expiryMark

/-- Whether a tick brings the window of the lease's offer from 1 to 0 with no claim raised (R60). -/
def Lease.windowEnds (l : Lease) : Bool := decide (l.offer.map Offer.window = some 1) && !l.windowMark

/-- The counts of a lease lowered, the remaining term and the offer window, each with its mark set where it ends (R47, R49,
R60). -/
def Lease.ticked (l : Lease) : Lease :=
  { l with
    remaining := l.remaining.map (fun n => n - 1)
    offer := l.offer.map (fun o => { o with window := o.window - 1 })
    expiryMark := l.expiryMark || l.termEnds
    windowMark := l.windowMark || l.windowEnds }

/-- A slot with the counts of its lease lowered. -/
def SlotRec.ticked (r : SlotRec) : SlotRec :=
  match r.cond with
  | .lease l => { r with cond := .lease l.ticked }
  | .free | .reserved _ => r

/-- Whether a tick comes: in the 32nd TREF period of a count, before its sample or after it (R45, R120). -/
def Rest.tickDue (r : Rest) : Bool := decide (r.due = .tick ∨ (r.due = .none ∧ r.divider = 31))

/-- A tick comes only while the divider runs (R45). -/
def State.tickDue (s : State) : Bool := s.running && s.rest.tickDue

/-- Rest Control at a tick: the divider has started again, and the rest delay is lowered (R45, R133). -/
def Rest.ticked (r : Rest) : Rest :=
  { r with
    timer := if r.part = .restingPending then r.timer - 1 else r.timer
    divider := 0
    due := if r.due = .tick then .none else .sample }

/-- The handles of the leases of which `ends` holds, in ascending slot number. -/
def State.handlesOf (s : State) (ends : Lease → Bool) : List Handle :=
  ((List.finRange 64).filter (fun i => ((s.leaseAt i).map ends).getD false)).map s.handleAt

/-- Claims put among those that wait; one that waits already is not put twice (R21). -/
def joinClaims (raised waiting : List Handle) : List Handle :=
  waiting ++ raised.filter (fun h => decide (h ∉ waiting))

/-- Whether a tick brings the adoption window count from 1 to 0 while a BOOT lease remains, with no claim raised (R165). -/
def State.adoptionEnds (s : State) : Bool := decide (s.adoption = some 1) && s.hasBoot && !s.adoptionMark

/-- One tick at the Term Timer, the controllers and Rest Control: each count above 0 is lowered by one, and a term, an
offer window or the adoption window that it ends raises its claim (R45, R47, R49, R60, R77, R133, R165). -/
def State.countTick (s : State) : State :=
  { s with
    slots := s.slots.map SlotRec.ticked
    termClaims := joinClaims (s.handlesOf Lease.termEnds) s.termClaims
    windowClaims := joinClaims (s.handlesOf Lease.windowEnds) s.windowClaims
    adoption := s.adoption.map (fun n => n - 1)
    adoptionMark := s.adoptionMark || s.adoptionEnds
    ctrls := s.ctrls.map (fun r => { r with timer := r.timer - 1 })
    rest := s.rest.ticked }

/-- The controllers whose timers the tick ends make their timed steps, one after another in the order given (R77;
notes/assumptions 27). -/
def State.endTimers (order : List Dom) (s : State) : State := order.foldl State.endTimer s

/-- One tick at the restart pulse of a client. The tick that ends it releases CRST_N of a warm home (R140, R141), but not
where an event that waits at the home makes it cold: such a tie leaves CRST_N asserted in either order, and here the tick
is first (R141; notes/assumptions 32). -/
def State.tickPulse (s : State) (c : Client) : State :=
  let r := s.client c
  if r.pulse = 1 then (s.setClient c { r with pulse := 0, tied := s.coldWaits (homeOf c) }).syncCrst c
  else s.setClient c { r with pulse := r.pulse - 1 }

/-- One tick at Client Control, in ascending client number, which is the model's order (R141; notes/assumptions 27). -/
def State.tickPulses (s : State) : State := (List.finRange 4).foldl State.tickPulse s

/-- Into QUIET in the tick that brings the rest timer to 0 with the rest conditions holding (R133). -/
def State.endDelay (s t : State) : State :=
  if s.rest.part = .restingPending ∧ s.rest.timer = 1 ∧ t.restConditions = true then t.enterPart .quiet 0 else t

/-- One whole tick: every count lowered and its claims raised, the timed steps it brings in the order given, the restart
pulses, and the rest it ends in. -/
def State.wholeTick (order : List Dom) (s : State) : State :=
  s.endDelay (s.countTick.endTimers order).tickPulses

/-- A tick, the controllers in ascending domain number (R45). -/
def State.tick (s : State) : State := s.wholeTick (List.finRange 8)

/-- A tick with the timed step of one controller made first. -/
def State.tickFrom (d : Dom) (s : State) : State := s.wholeTick (d :: (List.finRange 8).erase d)

/-- TICK (R45). -/
def execTick (s : State) : Result := s.occur s.tickDue State.tick

/-! ## The tick by the names of what it ends (notes/assumptions 26) -/

/-- Whether the tick that comes ends the controller's timer (R77). -/
def State.timerEnds (s : State) (d : Dom) : Bool := s.tickDue && decide ((s.ctrl d).timer = 1)

/-- RAMP_END (R109): the tick that ends the POWERING timer with PGOOD absent. -/
def execRampEnd (d : Dom) (s : State) : Result :=
  s.occur (s.timerEnds d && decide ((s.ctrl d).state = .powering) && !(s.ctrl d).pgood) (State.tickFrom d)

/-- Whether a domain is STARTING. -/
def isStarting : DomState → Bool
  | .starting _ => true
  | .off | .powering | .held | .slow | .full | .linger _ | .discharge | .fault => false

/-- SETTLE_END (R82): the tick that ends the STARTING timer. -/
def execSettleEnd (d : Dom) (s : State) : Result :=
  s.occur (s.timerEnds d && isStarting (s.ctrl d).state) (State.tickFrom d)

/-- Whether a domain lingers. -/
def isLingering : DomState → Bool
  | .linger _ => true
  | .off | .powering | .held | .starting _ | .slow | .full | .discharge | .fault => false

/-- LINGER_END (R85): the tick that ends the LINGER timer. -/
def execLingerEnd (d : Dom) (s : State) : Result :=
  s.occur (s.timerEnds d && isLingering (s.ctrl d).state) (State.tickFrom d)

/-- DISCHARGE_END (R86): the tick that ends the DISCHARGE timer. -/
def execDischargeEnd (d : Dom) (s : State) : Result :=
  s.occur (s.timerEnds d && decide ((s.ctrl d).state = .discharge)) (State.tickFrom d)

/-- REMAINING_REACHES_ZERO (R49): the tick that brings the remaining term of the lease in a slot to 0. -/
def execRemainingReachesZero (i : SlotNo) (s : State) : Result :=
  s.occur (s.tickDue && ((s.leaseAt i).map Lease.termEnds).getD false) State.tick

/-- OFFER_WINDOW_RUNS_OUT (R60): the tick that brings the offer window of the lease in a slot to 0. -/
def execOfferWindowRunsOut (i : SlotNo) (s : State) : Result :=
  s.occur (s.tickDue && ((s.leaseAt i).map Lease.windowEnds).getD false) State.tick

/-- ADOPTION_WINDOW_RUNS_OUT (R165): the tick that brings the adoption window count to 0 over a BOOT lease. -/
def execAdoptionWindowRunsOut (s : State) : Result := s.occur (s.tickDue && s.adoptionEnds) State.tick

/-- Whether the tick that comes ends the rest delay with the rest conditions holding (R133). -/
def State.delayEnds (s : State) : Bool :=
  s.tickDue && decide (s.rest.part = .restingPending ∧ s.rest.timer = 1) && s.restConditions

/-- REST_DELAY_END (R133): the tick that brings the rest timer to 0 with the rest conditions holding: into QUIET, and on
to WAKING at once where something wakes the part (R134). -/
def execRestDelayEnd (s : State) : Result := s.occur s.delayEnds State.tick

/-! ## Samples -/

/-- A sample taken: the present sample becomes the previous one, the levels become the present one, the watches
are judged, and the change latches are cleared (R120, R121, R126). -/
def State.sample (s : State) : State :=
  let s := { s with wake := { s.wake with previous := s.wake.present, present := s.wake.lines } }
  let s := s.judgeWatches
  { s with wake := { s.wake with latches := 0 } }

/-- A TREF period counted by the tick divider: the 32nd ends the count and owes a tick, unless its tick came first
(R45). -/
def Rest.counted (r : Rest) : Rest :=
  if r.due = .sample then { r with due := .none }
  else if r.divider < 31 then { r with divider := r.divider + 1 }
  else { r with divider := 0, due := .tick }

/-- LINE_SAMPLE (R120): one in each TREF period, which the divider counts; the next period's comes after the tick that
this one owes (R45). -/
def execLineSample (s : State) : Result :=
  s.occur (s.running && decide (s.rest.due ≠ .tick)) (fun t =>
    let t := t.sample
    { t with rest := t.rest.counted })

/-- The first sample: the levels become both samples; it is judged like any other (R120). -/
def State.firstSample (s : State) : State :=
  let s := { s with wake := { s.wake with previous := s.wake.lines, present := s.wake.lines } }
  let s := s.judgeWatches
  { s with wake := { s.wake with latches := 0 } }

/-- The lines with one of them at a level. -/
def setLine (l : Line) (high : Bool) (v : BitVec 24) : BitVec 24 :=
  let bit : BitVec 24 := 1#24 <<< l.1
  if high then v ||| bit else v &&& ~~~ bit

/-- A watch for which a line has changed: the line is stale for it no longer (R128). -/
def Watch.lineMoved (l : Line) (r : Watch) : Watch :=
  { r with stale := r.stale &&& ~~~ bankOf r.bank (1#24 <<< l.1) }

/-- A line at a new level, with its change latch set; while RESET_N is low the latches stay clear (R121, R137). -/
def State.moveLine (l : Line) (high : Bool) (s : State) : State :=
  let latches := if s.resetLow then s.wake.latches else s.wake.latches ||| (1#24 <<< l.1)
  { s with
    wake := { s.wake with lines := setLine l high s.wake.lines, latches := latches }
    watches := s.watches.map (fun o => o.map (Watch.lineMoved l)) }

/-- WAKE_LINE_CHANGE (R121): a change is a change of level. -/
def execWakeLineChange (l : Line) (high : Bool) (s : State) : Result :=
  s.occur (s.wake.lines.getLsbD l.1 != high) (State.moveLine l high)

/-! ## The end of WAKING -/

/-- The end of WAKING: AWAKE, the divider at 0, and the first sample (R135). -/
def State.awaken (s : State) : State :=
  { s with rest := { part := .awake, timer := 0, divider := 0, due := .none } }.firstSample

/-- WAKING_END (R135). -/
def execWakingEnd (s : State) : Result :=
  s.occur (!s.resetLow && decide (s.rest.part = .waking)) State.awaken

end Sys2Proof.Machine
end

