-- ==== Sys2Proof/Machine/ClientEvents.lean ====
section
/-! DEFINITION. The events of Client Control: the home-lost teardown and the end of a restart pulse (chapter 9). -/

namespace Sys2Proof.Machine

/-- One home-lost event carried out (R145, R146). -/
def State.tearDown (c : Client) (s : State) : State :=
  (s.setClient c { s.client c with homeLostPending := (s.client c).homeLostPending - 1 }).homeLost c

/-- HOME_LOST_TEARDOWN (R145). A teardown that still waits when the part goes to QUIET waits for AWAKE, so that every
queue and ATTN_N stands in QUIET and WAKING (R136, R153; notes/assumptions 15). -/
def execHomeLostTeardown (c : Client) (s : State) : Result :=
  s.occur (s.running && decide (0 < (s.client c).homeLostPending)) (State.tearDown c)

/-- RESTART_PULSE_END (R141): the tick that brings the client's pulse to 0, by the name of what it ends: CRST_N is
released if the home domain is warm (notes/assumptions 26). -/
def execRestartPulseEnd (c : Client) (s : State) : Result :=
  s.occur (s.tickDue && decide ((s.client c).pulse = 1)) State.tick

end Sys2Proof.Machine
end

