-- ==== Sys2Proof/Machine/ClientRequests.lean ====
section
/-! DEFINITION. The client and supervisor requests of chapter 9: STATUS, CLEARCAUSE, QUOTA, RESTART, SUPER.PASS. -/

namespace Sys2Proof.Machine

/-- CLIENT.STATUS (R143): the requester's record; the body is not looked at (R178). -/
def clientStatusRule (c : Client) (_body : List Byte) (s : State) : Reply :=
  accept [causeBits (s.client c).causes, byteOf (s.client c).quota, byteOf (s.charge c), byteOf s.supervisor.1,
    (presenceOf (s.ctrl (homeOf c))).code] s

/-- CLIENT_STATUS (R143). -/
def execClientStatus (s : State) : Result := s.take .clientStatus clientStatusRule

/-- The flags left when the marked ones are cleared (R144). -/
def CauseFlags.without (f m : CauseFlags) : CauseFlags :=
  { partStart := f.partStart && !m.partStart, homeLost := f.homeLost && !m.homeLost
    lapseRestart := f.lapseRestart && !m.lapseRestart, orderedRestart := f.orderedRestart && !m.orderedRestart }

/-- CLIENT.CLEARCAUSE (R144, R178): the marked flags of the requester are cleared. -/
def clientClearCauseRule (c : Client) (body : List Byte) (s : State) : Reply :=
  let s' := s.addCause c (fun f => f.without (clearMarks body))
  accept [causeBits (s'.client c).causes] s'

/-- CLIENT_CLEARCAUSE (R144). -/
def execClientClearCause (s : State) : Result := s.take .clientClearCause clientClearCauseRule

/-- CLIENT.QUOTA (R150): form, supervisor, at or above the charge; then the target's quota is set. -/
def clientQuotaRule (c : Client) (body : List Byte) (s : State) : Reply :=
  withForm (quotaArgs body) s (fun a =>
    withRole c s (
      if s.charge a.1 ≤ a.2 then
        accept [byteOf a.2, byteOf (s.charge a.1)] (s.setClient a.1 { s.client a.1 with quota := a.2 })
      else refuse .badArgument s))

/-- CLIENT_QUOTA (R150). -/
def execClientQuota (s : State) : Result := s.take .clientQuota clientQuotaRule

/-- CLIENT.RESTART (R149): form, supervisor, another client; then the target is restarted (R147). -/
def clientRestartRule (c : Client) (body : List Byte) (s : State) : Reply :=
  withForm (codeArgs 4 body) s (fun t =>
    withRole c s (
      if t = c then refuse .self s
      else
        accept [byteOf (s.restartRetires t).length]
          (s.restart t (fun f => { f with orderedRestart := true }))))

/-- CLIENT_RESTART (R149). -/
def execClientRestart (s : State) : Result := s.take .clientRestart clientRestartRule

/-- SUPER.PASS (R152): form, supervisor, another client; then the role moves. -/
def superPassRule (c : Client) (body : List Byte) (s : State) : Reply :=
  withForm (codeArgs 4 body) s (fun t =>
    withRole c s (
      if t = c then refuse .self s
      else accept [byteOf t.1] { s with supervisor := t }))

/-- SUPER_PASS (R152). -/
def execSuperPass (s : State) : Result := s.take .superPass superPassRule

end Sys2Proof.Machine
end

