-- ==== Sys2Proof/Machine/DomainRequests.lean ====
section
/-! DEFINITION. The domain requests READ, SETUP and DIVIDE (chapter 5) and CLEAR (chapter 7). -/

namespace Sys2Proof.Machine

/-- DOMAIN.READ (R91): form; the answer is the domain image. -/
def domainReadRule (_c : Client) (body : List Byte) (s : State) : Reply :=
  withForm (codeArgs 8 body) s (fun d => accept (s.domainImage d) s)

/-- DOMAIN_READ (R91). -/
def execDomainRead (s : State) : Result := s.take .domainRead domainReadRule

/-- Whether following parents upward from `p`, at most `fuel` further steps, reaches `d` (R92). -/
def State.reaches (s : State) (d : Dom) : Nat → Dom → Bool
  | 0, p => decide (p = d)
  | fuel + 1, p =>
    decide (p = d)
      || (match (s.ctrl p).setup.parent with
          | some q => s.reaches d fuel q
          | none => false)

/-- Whether a new parent would close a cycle (R92). -/
def State.closesCycle (s : State) (d : Dom) (parent : Option Dom) : Bool :=
  match parent with
  | some p => s.reaches d 7 p
  | none => false

/-- A domain's setup replaced, and no demand changed: a domain in OFF contributes none to its parent (R93). Where
a take has it counted through a derived demand it has not acted on yet, which R93 rules out, it is counted no longer,
and its own demand change hands it to the new parent (notes/assumptions 18). -/
def State.putSetup (d : Dom) (x : Setup) (s : State) : State :=
  let s' := s.modCtrl d (fun r => { r with setup := x, counts := false })
  match (s.ctrl d).counts, (s.ctrl d).setup.parent with
  | true, some p => s'.recompute p
  | _, _ => s'

/-- DOMAIN.SETUP (R92, R93): form, supervisor, OFF and no leases, no cycle; then the setup is replaced. -/
def domainSetupRule (c : Client) (body : List Byte) (s : State) : Reply :=
  withForm (setupArgs body) s (fun a =>
    withRole c s (
      if (s.ctrl a.1).state = .off ∧ s.leaseCount a.1 = 0 then
        if s.closesCycle a.1 a.2.parent then refuse .cycle s
        else accept (setupBytes a.2) (s.putSetup a.1 a.2)
      else refuse .domainBusy s))

/-- DOMAIN_SETUP (R93). -/
def execDomainSetup (s : State) : Result := s.take .domainSetup domainSetupRule

/-- Whether DCLK follows the divisor in a controller state: SLOW, LINGER at SLOW, STARTING toward SLOW (R94). -/
def ranAtDivided : DomState → Bool
  | .slow | .linger .slow | .starting .slow => true
  | .off | .powering | .held | .starting .full | .full | .linger .hold | .linger .full | .discharge | .fault =>
    false

/-- The divisor exponent set, and DCLK at the new rate where the domain runs divided (R94). -/
def State.divide (d : Dom) (k : Nat) (s : State) : State :=
  let s := s.modCtrl d (fun r => { r with divisor := k })
  if ranAtDivided (s.ctrl d).state then s.driveDclk d (.divided k) else s

/-- DOMAIN.DIVIDE (R94): form, supervisor; then the exponent is set. -/
def domainDivideRule (c : Client) (body : List Byte) (s : State) : Reply :=
  withForm (divideArgs body) s (fun a =>
    withRole c s (accept [byteOf a.2] (s.divide a.1 a.2)))

/-- DOMAIN_DIVIDE (R94). -/
def execDomainDivide (s : State) : Result := s.take .domainDivide domainDivideRule

/-- DOMAIN.CLEAR (R117): form, supervisor, FAULT; then the controller leaves FAULT for DISCHARGE. -/
def domainClearRule (c : Client) (body : List Byte) (s : State) : Reply :=
  withForm (codeArgs 8 body) s (fun d =>
    withRole c s (
      if (s.ctrl d).state = .fault then
        accept [domStateCode .discharge, causeCode (s.ctrl d).cause] (s.event d (State.toDischarge d))
      else refuse .notFaulted s))

/-- DOMAIN_CLEAR (R117). -/
def execDomainClear (s : State) : Result := s.take .domainClear domainClearRule

end Sys2Proof.Machine
end

