-- ==== Sys2Proof/Machine/Handover.lean ====
section
/-! DEFINITION. Handing leases over: OFFER, WITHDRAW and ACCEPT (chapter 4) and ADOPT (chapter 11). -/

namespace Sys2Proof.Machine

/-- LEASE.OFFER (R61, R62): form, handle, owner, target, no open offer, not bound; then the offer is opened and
the target told. -/
def leaseOfferRule (c : Client) (body : List Byte) (s : State) : Reply :=
  withForm (offerArgs body) s (fun a =>
    withOwned c a.1 s (fun l =>
      if a.2.1 = c then refuse .self s
      else if l.offer.isSome then refuse .offerOpen s
      else if l.binding.isSome then refuse .bound s
      else
        accept ([byteOf a.2.1.1] ++ bytes2 a.2.2)
          ((s.putLease a.1.slot { l with offer := some { target := a.2.1, window := a.2.2 } }).notify
            a.2.1 .offered (.lease a.1) (.offered c l.domain l.level a.2.2))))

/-- LEASE_OFFER (R62). -/
def execLeaseOffer (s : State) : Result := s.take .leaseOffer leaseOfferRule

/-- LEASE.WITHDRAW (R64): form, handle, owner, an open offer; then the offer is removed. -/
def leaseWithdrawRule (c : Client) (body : List Byte) (s : State) : Reply :=
  withForm (handleArgs body) s (fun h =>
    withOwned c h s (fun l =>
      match l.offer with
      | none => refuse .notOffered s
      | some o => accept (bytes2 o.window) (s.putLease h.slot { l with offer := none })))

/-- LEASE_WITHDRAW (R64). -/
def execLeaseWithdraw (s : State) : Result := s.take .leaseWithdraw leaseWithdrawRule

/-- The answer body of ACCEPT and ADOPT: status, domain, level, term and remaining term (R66, R167). -/
def State.gainedBody (s : State) (l : Lease) : List Byte :=
  [(s.statusOf l).code, byteOf l.domain.1, levelCode l.level] ++ bytes2 l.term ++ bytes2 l.remainingShown

/-- The lease after an acceptance by a client (R66). -/
def Lease.accepted (l : Lease) (c : Client) : Lease :=
  { l with owner := .client c, offer := none, remaining := if l.term = 0 then none else some l.term }

/-- LEASE.ACCEPT (R65, R66): form, handle, an offer to the requester, quota; then the requester is the owner, the
term is reloaded and the old owner told. -/
def leaseAcceptRule (c : Client) (body : List Byte) (s : State) : Reply :=
  withForm (handleArgs body) s (fun h =>
    withLease h s (fun l =>
      if l.offer.map Offer.target = some c then
        withQuota c s (
          accept (s.gainedBody (l.accepted c))
            ((s.putLease h.slot (l.accepted c)).notifyOwner l.owner .offerEnded (.lease h)
              (.ended c .accepted)))
      else refuse .notOffered s))

/-- LEASE_ACCEPT (R66). -/
def execLeaseAccept (s : State) : Result := s.take .leaseAccept leaseAcceptRule

/-- The lease after an adoption by a client (R167). -/
def Lease.adopted (l : Lease) (c : Client) (a : AdoptTerms) : Lease :=
  { l with
    owner := .client c, term := a.term, remaining := if a.term = 0 then none else some a.term
    lapse := a.lapse, tag := a.tag, survives := a.survives }

/-- LEASE.ADOPT (R167): form, handle, owner BOOT, quota; then the requester is the owner with the values given,
and the adoption window count goes with the last BOOT lease (R165). -/
def leaseAdoptRule (c : Client) (body : List Byte) (s : State) : Reply :=
  withForm (adoptArgs body) s (fun a =>
    withLease a.1 s (fun l =>
      if l.owner = .boot then
        withQuota c s (
          accept (s.gainedBody (l.adopted c a.2)) ((s.putLease a.1.slot (l.adopted c a.2)).dropAdoption))
      else refuse .notOffered s))

/-- LEASE_ADOPT (R167). -/
def execLeaseAdopt (s : State) : Result := s.take .leaseAdopt leaseAdoptRule

end Sys2Proof.Machine
end

