-- ==== Sys2Proof/Machine/LeaseRequests.lean ====
section
/-! DEFINITION. The seven lease requests of chapter 2: TAKE, RENEW, ALTER, RELEASE, READ, LIST, REVOKE. Each has
a rule, which is what a taken request of the kind does, and the meaning of its command. -/

namespace Sys2Proof.Machine

/-- LEASE.TAKE (R26 to R28): form, quota, free slot; then the lease is created in the lowest FREE slot. -/
def leaseTakeRule (c : Client) (body : List Byte) (s : State) : Reply :=
  withForm (takeArgs body) s (fun t =>
    withQuota c s (
      match s.freeSlot with
      | none => refuse .tableFull s
      | some i =>
        let s' := s.create i (.client c) t none
        accept (handleBytes (s'.handleAt i) ++ bytes4 s'.counter
          ++ [(leaseStatus (s.ctrl t.domain).state t.level).code]) s'))

/-- LEASE_TAKE (R27). -/
def execLeaseTake (s : State) : Result := s.take .leaseTake leaseTakeRule

/-- The lease after a renewal (R30). -/
def Lease.renewed (l : Lease) (newTerm : Option Nat) : Lease :=
  match newTerm with
  | none => { l with remaining := some l.term }
  | some 0 => { l with term := 0, remaining := none }
  | some n => { l with term := n, remaining := some n }

/-- LEASE.RENEW (R29, R30): form, handle, owner, something to renew; then the remaining term is reloaded or the
term is set. -/
def leaseRenewRule (c : Client) (body : List Byte) (s : State) : Reply :=
  withForm (renewArgs body) s (fun a =>
    withOwned c a.1 s (fun l =>
      if a.2 = none ∧ l.term = 0 then refuse .badArgument s
      else
        let l' := l.renewed a.2
        accept ([(s.statusOf l').code] ++ bytes2 l'.term ++ bytes2 l'.remainingShown)
          (s.putLease a.1.slot l')))

/-- LEASE_RENEW (R30). -/
def execLeaseRenew (s : State) : Result := s.take .leaseRenew leaseRenewRule

/-- LEASE.ALTER (R32, R33): form, handle, owner; then the level is set. -/
def leaseAlterRule (c : Client) (body : List Byte) (s : State) : Reply :=
  withForm (alterArgs body) s (fun a =>
    withOwned c a.1 s (fun l =>
      let l' := { l with level := a.2 }
      accept [(s.statusOf l').code] (s.putLease a.1.slot l')))

/-- LEASE_ALTER (R32). -/
def execLeaseAlter (s : State) : Result := s.take .leaseAlter leaseAlterRule

/-- LEASE.RELEASE (R34, R35): form, handle, owner; then the lease is retired. -/
def leaseReleaseRule (c : Client) (body : List Byte) (s : State) : Reply :=
  withForm (handleArgs body) s (fun h =>
    withOwned c h s (fun _ => accept [] (s.retire h.slot)))

/-- LEASE_RELEASE (R34). -/
def execLeaseRelease (s : State) : Result := s.take .leaseRelease leaseReleaseRule

/-- LEASE.READ (R37): form, handle; the answer is the lease image. -/
def leaseReadRule (_c : Client) (body : List Byte) (s : State) : Reply :=
  withForm (handleArgs body) s (fun h =>
    withLease h s (fun l => accept (s.leaseImage h.slot l) s))

/-- LEASE_READ (R37). -/
def execLeaseRead (s : State) : Result := s.take .leaseRead leaseReadRule

/-- The leases a listing reaches: those the filter selects with creation numbers above the cursor, in listing
order (R39). -/
def State.listed (s : State) (f : Filter) (cursor : Nat) : List (SlotNo × Lease) :=
  s.leases.filter (fun x => f.selects x.2 && decide (cursor < x.2.creation))

/-- One item of a listing (R39). -/
def State.listItem (s : State) (x : SlotNo × Lease) : List Byte :=
  handleBytes (s.handleAt x.1) ++ bytes4 x.2.creation

/-- The body of a listing: count, more mark, items (R39, R181). -/
def State.listBody (s : State) (xs : List (SlotNo × Lease)) : List Byte :=
  let items := xs.take Config.listItems
  [byteOf items.length, boolCode (decide (Config.listItems < xs.length))] ++ items.flatMap s.listItem

/-- LEASE.LIST (R38, R39): form; the answer is the listing. -/
def leaseListRule (_c : Client) (body : List Byte) (s : State) : Reply :=
  withForm (listArgs body) s (fun a => accept (s.listBody (s.listed a.1 a.2)) s)

/-- LEASE_LIST (R39). -/
def execLeaseList (s : State) : Result := s.take .leaseList leaseListRule

/-- LEASE.REVOKE (R41, R42): form, supervisor, handle; then the lease is retired and a client owner is told. -/
def leaseRevokeRule (c : Client) (body : List Byte) (s : State) : Reply :=
  withForm (handleArgs body) s (fun h =>
    withRole c s (
      withLease h s (fun l =>
        accept [ownerCode l.owner]
          ((s.retire h.slot).dropAdoption.notifyOwner l.owner .revoked (.lease h) (.level l.domain l.level)))))

/-- LEASE_REVOKE (R41). -/
def execLeaseRevoke (s : State) : Result := s.take .leaseRevoke leaseRevokeRule

end Sys2Proof.Machine
end

