-- ==== Sys2Proof/Machine/Notices.lean ====
section
/-! DEFINITION. NOTICE.FETCH (chapter 10) and PART.IDENT (chapter 12). -/

namespace Sys2Proof.Machine

/-- NOTICE.FETCH (R158): the head entry removed and answered, or OVERRUN with the marker cleared, or EMPTY. -/
def noticeFetchRule (c : Client) (_body : List Byte) (s : State) : Reply :=
  match (s.queue c).entries with
  | e :: rest =>
    accept (noticeImage e ++ [byteOf rest.length, boolCode (s.queue c).overrun])
      (s.putQueue c rest (s.queue c).overrun)
  | [] => if (s.queue c).overrun then refuse .overrun (s.putQueue c [] false) else refuse .empty s

/-- NOTICE_FETCH (R158). -/
def execNoticeFetch (s : State) : Result := s.take .noticeFetch noticeFetchRule

/-- PART.IDENT (R179): vendor, part, revision, the capacities and the plan in force. -/
def partIdentRule (_c : Client) (_body : List Byte) (s : State) : Reply :=
  accept [0x2C, 0x7A, 0x32, 0x08, 1, 64, 16, 8, 4, 24, byteOf s.plan.1] s

/-- PART_IDENT (R179). -/
def execPartIdent (s : State) : Result := s.take .partIdent partIdentRule

end Sys2Proof.Machine
end

