-- ==== Sys2Proof/Machine/PartStart.lean ====
section
/-! DEFINITION. RESET_N: the fall that holds the part, and the release that starts it (chapter 11). -/

namespace Sys2Proof.Machine

/-! ## The part held -/

/-- Every block at its part-start value, with the inputs at their levels, MISO as last driven, the plan in force
until the next part start, the commands that wait, and the changes of this step kept (R162 to R164). -/
def State.blank (s : State) : State :=
  { State.reset with
    wake := { lines := s.wake.lines, present := 0, previous := 0, latches := 0 }
    ctrls := Vec.ofFn (fun d => Ctrl.initial d (s.ctrl d).pgood)
    miso := s.miso
    plan := s.plan
    changes := s.changes
    pending := s.pending }

/-- Every output driven to its off or asserted-reset value, each domain's in the order for entry into FAULT
(R88, R140, R153, R162). -/
def State.dropAll (s : State) : State :=
  let s := (List.finRange 8).foldl (fun t d => t.dropOutputs d) s
  let s := (List.finRange 4).foldl (fun t c => t.driveCrst c true) s
  (List.finRange 4).foldl (fun t c => t.clearQueue c) s

/-- RESET_ASSERT (R162). -/
def execResetAssert (s : State) : Result := s.occur (!s.resetLow) (fun t => t.dropAll.blank)

/-! ## Part start -/

/-- The plan the straps select: twice PLAN1 plus PLAN0 (R163). -/
def planOf (plan1 plan0 : Bool) : Fin 4 :=
  match plan1, plan0 with
  | false, false => 0
  | false, true => 1
  | true, false => 2
  | true, true => 3

/-- The record values of a boot lease (R164 step 3). -/
def bootTemplate (x : Dom × Level) (window : Nat) : Template :=
  { domain := x.1, level := x.2, term := window, lapse := .release, survives := false, tag := 0 }

/-- The boot leases created in plan order, each in the lowest FREE slot, in a table that is otherwise FREE (R3,
R164 step 3). -/
def State.install (window : Nat) (s : State) (x : Dom × Level) : State :=
  match s.freeSlot with
  | some i => s.create i .boot (bootTemplate x window) none
  | none => s

/-- The demands of the plan: every lease demand, then every derived demand with the count toward the parent that
follows from it, a parent after its children, which stand above it in the default tree (R96, R97, R164 step 6). -/
def State.planDemand (s : State) : State :=
  let s := (List.finRange 8).foldl
    (fun t d => t.modCtrl d (fun r => { r with leaseDemand := t.tableDemand d })) s
  (List.finRange 8).reverse.foldl
    (fun t d => (t.modCtrl d (fun r => { r with derivedDemand := t.derivedFrom d })).recount d) s

/-- Every controller with a demand acts on it in OFF (R78, R164 step 6). The spec gives no order among the domains;
ascending domain number is the model's choice, which only the record of output changes shows (notes/assumptions 27). -/
def State.raisePlan (s : State) : State :=
  (List.finRange 8).foldl (fun t d => if t.demand d = none then t else t.event d (State.toPowering d)) s

/-- The part started on a plan, in the order of R164. -/
def State.start (plan : Fin 4) (s : State) : State :=
  let rom := Config.planRom plan
  let s := { s.blank with plan := plan, resetLow := false }
  let s := rom.1.foldl (State.install rom.2) s
  let s := { s with adoption := some rom.2 }
  let s := s.firstSample
  s.planDemand.raisePlan

/-- PART_START (R164). -/
def execPartStart (plan1 plan0 : Bool) (s : State) : Result :=
  s.occur s.resetLow (State.start (planOf plan1 plan0))

end Sys2Proof.Machine
end

