-- ==== Sys2Proof/WellFormed.lean ====
section
/-! DEFINITION. Which commands are well formed. Slots, watches, domains, clients and lines are well formed by
their types; what is left to check is that a transaction is of the kind its row names (R169). -/

namespace Sys2Proof

/-- C3h opens a SEND (R169). -/
def sendByte : Byte := 0xC3#8

/-- 3Ch opens a COLLECT (R169). -/
def collectByte : Byte := 0x3C#8

/-- An ignored transaction has no whole transaction byte, or one that opens neither a SEND nor a COLLECT. -/
def ignorable (bytes : List Byte) : Bool :=
  match bytes with
  | [] => true
  | b :: _ => b != sendByte && b != collectByte

/-- The check: an IGNORED_TRANSACTION whose first byte is C3h or 3Ch is a SEND or a COLLECT and no ignored
transaction. Every other command is well formed. -/
def Instr.wellFormed : Instr → Bool
  | .ignoredTransaction _ _ bytes => ignorable bytes
  | .leaseTake | .leaseRenew | .leaseAlter | .leaseRelease | .leaseRead | .leaseList | .leaseRevoke
  | .leaseOffer | .leaseWithdraw | .leaseAccept | .leaseAdopt | .watchSet | .watchDrop | .watchRead
  | .linesRead | .domainRead | .domainSetup | .domainDivide | .domainClear | .clientStatus
  | .clientClearCause | .clientQuota | .clientRestart | .superPass | .noticeFetch | .partIdent
  | .remainingReachesZero _ | .leaseTermExpiry _ | .offerWindowRunsOut _ | .offerWindowExpiry _
  | .adoptionWindowRunsOut | .adoptionWindowExpiry | .firing _ | .tick | .lineSample
  | .wakeLineChange _ _ | .demandChange _ | .parentChange _ | .pgoodPresent _ | .pgoodLoss _
  | .rampEnd _ | .settleEnd _ | .lingerEnd _ | .dischargeEnd _ | .homeLostTeardown _
  | .restartPulseEnd _ | .restDelayEnd | .wakingEnd | .resetAssert | .partStart _ _ | .send _ _ _
  | .collect _ _ _ => true

end Sys2Proof
end

