-- ==== Sys2Proof/Machine/Ports.lean ====
section
/-! DEFINITION. The transactions of a client port: SEND, COLLECT and the ignored transaction (chapter 12). -/

namespace Sys2Proof.Machine

/-- The bytes a port drives on MISO in a transaction. -/
def State.driveMiso (c : Client) (bytes : List Byte) (s : State) : State :=
  { s with miso := s.miso.set c bytes }

/-- A transaction of `n` bytes in which the port drives FFh throughout (R169). -/
def State.driveHigh (c : Client) (n : Nat) (s : State) : State :=
  s.driveMiso c (List.replicate n 0xFF#8)

/-- Whether a port looks at a transaction: RESET_N is high, and no teardown or part start cut it off (R169). -/
def State.serves (s : State) (cut : Bool) : Bool := !s.resetLow && !cut

/-! ## SEND -/

/-- TORN set among the pending flags (R171). -/
def State.setTorn (c : Client) (s : State) : State := s.setPort c { s.port c with torn := true }

/-- BUSY_DROP set among the pending flags (R172). -/
def State.setBusyDrop (c : Client) (s : State) : State := s.setPort c { s.port c with busyDrop := true }

/-- A waiting answer discarded with PRIOR_DISCARDED; a port that holds none is left as it is (R172). -/
def State.discardAnswer (c : Client) (s : State) : State :=
  match (s.port c).state with
  | .ready _ => s.setPort c { s.port c with state := .idle, priorDiscarded := true }
  | .idle | .held _ => s

/-- An answer the port forms itself: READY with it, the pending flags cleared, the saved answer and the sequence
memory as they stood (R172, R173, R176). -/
def State.selfAnswer (c : Client) (a : Answer) (s : State) : State :=
  s.setPort c { (s.port c).flagsCleared with state := .ready a }

/-- The FRAME_ERROR answer (R172). -/
def State.frameError (s : State) (c : Client) (header kind : Byte) : Answer :=
  { status := .frameError, flags := s.flagsNow c false, seqEcho := header, kindEcho := kind, body := [] }

/-- The saved answer a request replays, if it is a replay (R173). -/
def Port.replayed (p : Port) (r : Request) : Option Answer :=
  if r.seq ≠ 0 ∧ p.memory = some r.seq then p.saved else none

/-- A good frame at a port that holds no request: answered from the saved answer, or held (R173). -/
def State.acceptFrame (c : Client) (r : Request) (s : State) : State :=
  match (s.port c).replayed r with
  | some a => s.selfAnswer c { a with flags := s.flagsNow c true }
  | none => s.setPort c { s.port c with state := .held r }

/-- What a judged frame does, by the port state at the rise of CS_N (R172). -/
def State.receive (c : Client) (f : Frame) (s : State) : State :=
  match f, (s.port c).state with
  | .torn, _ => s.setTorn c
  | .bad _ _, .held _ => s.setBusyDrop c
  | .good _, .held _ => s.setBusyDrop c
  | .bad h k, _ =>
    let s := s.discardAnswer c
    s.selfAnswer c (s.frameError c h k)
  | .good r, _ => (s.discardAnswer c).acceptFrame c r

/-- SEND (R172): FFh is driven throughout. -/
def execSend (c : Client) (cut : Bool) (bytes : List Byte) (s : State) : Result :=
  s.occur true (fun t =>
    let t := t.driveHigh c (bytes.length + 1)
    if t.serves cut then t.receive c (judgeFrame bytes) else t)

/-! ## COLLECT -/

/-- A frame that answers no request: the pending flags and ATTN as they stand, and no body (R175, R176). -/
def State.emptyFrame (s : State) (c : Client) (status : Status) (seqEcho kindEcho : Byte) : Answer :=
  { status := status, flags := s.flagsNow c false, seqEcho := seqEcho, kindEcho := kindEcho, body := [] }

/-- The answer a COLLECT shifts out, by the port state at its transaction byte (R175). -/
def State.shifted (s : State) (c : Client) : Answer :=
  match (s.port c).state with
  | .ready a => a
  | .held r => s.emptyFrame c .notReady (r.seq.setWidth 8) (byteOf r.kind.code)
  | .idle => s.emptyFrame c .noAnswer 0 0

/-- The port after `n` bytes were clocked: a waiting answer shifted out whole leaves it IDLE (R175). -/
def State.afterCollect (c : Client) (n : Nat) (s : State) : State :=
  match (s.port c).state with
  | .ready a => if (answerFrame a).length ≤ n then s.setPort c { s.port c with state := .idle } else s
  | .idle | .held _ => s

/-- The bytes of a COLLECT in which `n` bytes were clocked after the transaction byte: FFh, the frame, and 00h
after its CRC (R169, R175). -/
def collectBytes (a : Answer) (n : Nat) : List Byte :=
  [0xFF#8] ++ (answerFrame a).take n ++ List.replicate (n - (answerFrame a).length) 0x00#8

/-- How many of the `n` bytes clocked the port serves: all of them, or those before the cut (R145, R169). -/
def servedBytes (cut : Option Nat) (n : Nat) : Nat :=
  match cut with
  | none => n
  | some k => min k n

/-- COLLECT (R175): what is shifted out, and FFh in the bytes after a cut (R169). -/
def execCollect (c : Client) (cut : Option Nat) (n : Nat) (s : State) : Result :=
  s.occur true (fun t =>
    if t.resetLow then t.driveHigh c (n + 1)
    else
      let k := servedBytes cut n
      (t.driveMiso c (collectBytes (t.shifted c) k ++ List.replicate (n - k) 0xFF#8)).afterCollect c k)

/-! ## Ignored transactions -/

/-- IGNORED_TRANSACTION (R169): FFh is driven, and TORN is set unless the transaction was cut off. -/
def execIgnoredTransaction (c : Client) (cut : Bool) (bytes : List Byte) (s : State) : Result :=
  s.occur (ignorable bytes) (fun t =>
    let t := t.driveHigh c bytes.length
    if t.serves cut then t.setTorn c else t)

end Sys2Proof.Machine
end

