-- ==== Sys2Proof/Machine/Watches.lean ====
section
/-! DEFINITION. The watch requests SET, DROP and READ, LINES.READ, and the firing of a watch (chapter 8). -/

namespace Sys2Proof.Machine

/-- The record of a new watch: ARMED, and judged at once if it is a LOW watch (R125, R126). -/
def newWatch (u : WakeUnit) (c : Client) (a : WatchArgs) (slot : SlotNo) : Watch :=
  armedWatch u
    { owner := c, bank := a.bank, mask := a.mask, sense := a.sense, template := a.template, state := .armed
      slot := slot, mark := false, stale := 0 }

/-- WATCH.SET (R124, R125): form, room for a watch, quota, free slot; then the watch takes the lowest free id and
reserves the lowest FREE slot. -/
def watchSetRule (c : Client) (body : List Byte) (s : State) : Reply :=
  withForm (watchSetArgs body) s (fun a =>
    match s.freeWatch with
    | none => refuse .watchesFull s
    | some w =>
      withQuota c s (
        match s.freeSlot with
        | none => refuse .tableFull s
        | some i =>
          accept [byteOf w.1, byteOf i.1]
            ((s.setSlot i { gen := (s.slot i).gen, cond := .reserved w }).setWatch w
              (some (newWatch s.wake c a i)))))

/-- WATCH_SET (R125). -/
def execWatchSet (s : State) : Result := s.take .watchSet watchSetRule

/-- A watch removed and its slot given back: FREE from RESERVED with its generation kept, or its lease unbound
(R129, R130). -/
def State.dropWatch (w : WatchId) (r : Watch) (s : State) : State :=
  let s' := s.setWatch w none
  match r.state with
  | .armed => s'.setSlot r.slot { gen := (s.slot r.slot).gen, cond := .free }
  | .spent =>
    match s.leaseAt r.slot with
    | some l => s'.putLease r.slot { l with binding := none }
    | none => s'

/-- The handle a WATCH.DROP answers: the unbound lease's, or 0 for an ARMED watch (R129, R130, R181). -/
def State.dropHandle (s : State) (r : Watch) : List Byte :=
  match r.state with
  | .armed => [0, 0]
  | .spent => handleBytes (s.handleAt r.slot)

/-- WATCH.DROP (R129, R130): form, a watch with the id, owner; then the watch is removed. -/
def watchDropRule (c : Client) (body : List Byte) (s : State) : Reply :=
  withForm (codeArgs 16 body) s (fun w =>
    match s.watch w with
    | none => refuse .noWatch s
    | some r =>
      if r.owner = c then
        accept ([watchStateCode r.state, byteOf r.slot.1] ++ s.dropHandle r) (s.dropWatch w r)
      else refuse .notOwner s)

/-- WATCH_DROP (R129). -/
def execWatchDrop (s : State) : Result := s.take .watchDrop watchDropRule

/-- WATCH.READ (R131): form, a watch with the id; the answer is the watch image. -/
def watchReadRule (_c : Client) (body : List Byte) (s : State) : Reply :=
  withForm (codeArgs 16 body) s (fun w =>
    match s.watch w with
    | none => refuse .noWatch s
    | some r => accept (s.watchImage w r) s)

/-- WATCH_READ (R131). -/
def execWatchRead (s : State) : Result := s.take .watchRead watchReadRule

/-- LINES.READ (R131): the present sample, one byte per bank; the body is not looked at (R178). -/
def linesReadRule (_c : Client) (_body : List Byte) (s : State) : Reply :=
  accept [bankOf 0 s.wake.present, bankOf 1 s.wake.present, bankOf 2 s.wake.present] s

/-- LINES_READ (R131). -/
def execLinesRead (s : State) : Result := s.take .linesRead linesReadRule

/-- Whether a firing claim of the watch waits (R126). -/
def State.firingWaits (s : State) (w : WatchId) : Bool := ((s.watch w).map Watch.mark).getD false

/-- The firing of an ARMED watch: its lease is created in its own slot, it is SPENT, and its owner is told
(R127). A watch found SPENT only loses its mark. -/
def State.fire (w : WatchId) (s : State) : State :=
  match s.watch w with
  | none => s
  | some r =>
    match r.state with
    | .spent => s.setWatch w (some { r with mark := false })
    | .armed =>
      let s' := (s.create r.slot (.client r.owner) r.template (some w)).setWatch w
        (some { r with state := .spent, mark := false })
      s'.notify r.owner .watchFired (.watch w) (.handle (s'.handleAt r.slot))

/-- FIRING (R127). -/
def execFiring (w : WatchId) (s : State) : Result := s.claim (s.firingWaits w) (State.fire w)

end Sys2Proof.Machine
end

