-- ==== Sys2Proof/Machine/Dispatch.lean ====
section
/-! DEFINITION. The meaning of every command: one arm per constructor of `Instr`, each a call of its meaning. -/

namespace Sys2Proof.Machine

/-- What a command does to everything but the queue of waiting commands. -/
def exec (i : Instr) (s : State) : Host.Outcome State Fault Refusal :=
  match i with
  | .leaseTake => Sys2Proof.Machine.execLeaseTake s
  | .leaseRenew => Sys2Proof.Machine.execLeaseRenew s
  | .leaseAlter => Sys2Proof.Machine.execLeaseAlter s
  | .leaseRelease => Sys2Proof.Machine.execLeaseRelease s
  | .leaseRead => Sys2Proof.Machine.execLeaseRead s
  | .leaseList => Sys2Proof.Machine.execLeaseList s
  | .leaseRevoke => Sys2Proof.Machine.execLeaseRevoke s
  | .leaseOffer => Sys2Proof.Machine.execLeaseOffer s
  | .leaseWithdraw => Sys2Proof.Machine.execLeaseWithdraw s
  | .leaseAccept => Sys2Proof.Machine.execLeaseAccept s
  | .leaseAdopt => Sys2Proof.Machine.execLeaseAdopt s
  | .watchSet => Sys2Proof.Machine.execWatchSet s
  | .watchDrop => Sys2Proof.Machine.execWatchDrop s
  | .watchRead => Sys2Proof.Machine.execWatchRead s
  | .linesRead => Sys2Proof.Machine.execLinesRead s
  | .domainRead => Sys2Proof.Machine.execDomainRead s
  | .domainSetup => Sys2Proof.Machine.execDomainSetup s
  | .domainDivide => Sys2Proof.Machine.execDomainDivide s
  | .domainClear => Sys2Proof.Machine.execDomainClear s
  | .clientStatus => Sys2Proof.Machine.execClientStatus s
  | .clientClearCause => Sys2Proof.Machine.execClientClearCause s
  | .clientQuota => Sys2Proof.Machine.execClientQuota s
  | .clientRestart => Sys2Proof.Machine.execClientRestart s
  | .superPass => Sys2Proof.Machine.execSuperPass s
  | .noticeFetch => Sys2Proof.Machine.execNoticeFetch s
  | .partIdent => Sys2Proof.Machine.execPartIdent s
  | .remainingReachesZero slot => Sys2Proof.Machine.execRemainingReachesZero slot s
  | .leaseTermExpiry h => Sys2Proof.Machine.execLeaseTermExpiry h s
  | .offerWindowRunsOut slot => Sys2Proof.Machine.execOfferWindowRunsOut slot s
  | .offerWindowExpiry h => Sys2Proof.Machine.execOfferWindowExpiry h s
  | .adoptionWindowRunsOut => Sys2Proof.Machine.execAdoptionWindowRunsOut s
  | .adoptionWindowExpiry => Sys2Proof.Machine.execAdoptionWindowExpiry s
  | .firing w => Sys2Proof.Machine.execFiring w s
  | .tick => Sys2Proof.Machine.execTick s
  | .lineSample => Sys2Proof.Machine.execLineSample s
  | .wakeLineChange l high => Sys2Proof.Machine.execWakeLineChange l high s
  | .demandChange d => Sys2Proof.Machine.execDemandChange d s
  | .parentChange d => Sys2Proof.Machine.execParentChange d s
  | .pgoodPresent d => Sys2Proof.Machine.execPgoodPresent d s
  | .pgoodLoss fall => Sys2Proof.Machine.execPgoodLoss fall s
  | .rampEnd d => Sys2Proof.Machine.execRampEnd d s
  | .settleEnd d => Sys2Proof.Machine.execSettleEnd d s
  | .lingerEnd d => Sys2Proof.Machine.execLingerEnd d s
  | .dischargeEnd d => Sys2Proof.Machine.execDischargeEnd d s
  | .homeLostTeardown c => Sys2Proof.Machine.execHomeLostTeardown c s
  | .restartPulseEnd c => Sys2Proof.Machine.execRestartPulseEnd c s
  | .restDelayEnd => Sys2Proof.Machine.execRestDelayEnd s
  | .wakingEnd => Sys2Proof.Machine.execWakingEnd s
  | .resetAssert => Sys2Proof.Machine.execResetAssert s
  | .partStart plan1 plan0 => Sys2Proof.Machine.execPartStart plan1 plan0 s
  | .send c cut bytes => Sys2Proof.Machine.execSend c cut bytes s
  | .collect c cut n => Sys2Proof.Machine.execCollect c cut n s
  | .ignoredTransaction c cut bytes => Sys2Proof.Machine.execIgnoredTransaction c cut bytes s

end Sys2Proof.Machine
end

