-- ==== Sys2Proof/Safety.lean ====
section
/-! DEFINITION. The laws of the part: what the spec says stands at every moment. Each is a decidable property of
one state. -/

namespace Sys2Proof.Machine

/-! ## The lease table (chapters 1 and 4) -/

/-- A RESERVED slot names an ARMED watch whose slot it is; the lease of a LEASE slot, if bound, is bound to a SPENT
watch whose slot it is and whose owner is its owner (R1, R123, R127). -/
def slotPaired (s : State) (i : SlotNo) : Bool :=
  match (s.slot i).cond with
  | .free => true
  | .reserved w => ((s.watch w).map (fun r => decide (r.state = .armed ∧ r.slot = i))).getD false
  | .lease l =>
    match l.binding with
    | none => true
    | some w =>
      ((s.watch w).map (fun r => decide (r.state = .spent ∧ r.slot = i ∧ l.owner = .client r.owner))).getD false

/-- An ARMED watch names a RESERVED slot that names it; a SPENT watch names a slot whose lease is bound to it and
has no claim waiting (R1, R123, R126). -/
def watchPaired (s : State) (w : WatchId) : Bool :=
  match s.watch w with
  | none => true
  | some r =>
    match r.state with
    | .armed => decide ((s.slot r.slot).cond = .reserved w)
    | .spent => decide ((s.leaseAt r.slot).bind Lease.binding = some w) && !r.mark

/-- The first law of the table: slots and watches pair (R1). -/
abbrev TableLaw (s : State) : Prop := (∀ i, slotPaired s i = true) ∧ ∀ w, watchPaired s w = true

/-- What holds of every lease record: a remaining term exactly when timed and never above the term (R6); a BOOT
lease keeps RELEASE, no survival, no offer and no binding (R8, R59); an offer is never on a bound lease, never to
its owner, and its window is at most 4095 (R59). -/
def leaseSound (l : Lease) : Bool :=
  decide (l.term ≤ 65535)
    && (match l.remaining with
        | none => decide (l.term = 0)
        | some n => decide (l.term ≠ 0 ∧ n ≤ l.term))
    && (match l.owner with
        | .boot => decide (l.lapse = .release ∧ l.survives = false ∧ l.offer = none ∧ l.binding = none)
        | .client _ => true)
    && (match l.offer with
        | none => true
        | some o => decide (l.binding = none ∧ l.owner ≠ .client o.target ∧ o.window ≤ 4095))

/-- Every lease record is sound, and every watch's template has a term a lease can carry (R6, R8, R59, R123). -/
abbrev LeaseLaw (s : State) : Prop :=
  (∀ i, ((s.leaseAt i).map leaseSound).getD true = true)
    ∧ ∀ w, ((s.watch w).map (fun r => decide (r.template.term ≤ 65535))).getD true = true

/-- The creation numbers in the table (R9). -/
def State.numbers (s : State) : List Nat := s.leasesBySlot.map (fun x => x.2.creation)

/-- Creation numbers are all different, from 1 to the counter, which fits its 32 bits (R9, R11). -/
abbrev CreationLaw (s : State) : Prop :=
  s.numbers.Nodup ∧ (∀ n ∈ s.numbers, 1 ≤ n ∧ n ≤ s.counter) ∧ s.counter ≤ Config.counterMax

/-- No client's charge exceeds its quota, and every quota is 1 to 64 (R13). -/
abbrev QuotaLaw (s : State) : Prop :=
  ∀ c, s.charge c ≤ (s.client c).quota ∧ 1 ≤ (s.client c).quota ∧ (s.client c).quota ≤ 64

/-- The mark of a lease is set only while its claim waits, and at most one claim of a kind waits for a handle
(R21, R49, R60). -/
abbrev ClaimLaw (s : State) : Prop :=
  s.termClaims.Nodup ∧ s.windowClaims.Nodup
    ∧ (∀ i, ((s.leaseAt i).map Lease.expiryMark).getD false = true → s.handleAt i ∈ s.termClaims)
    ∧ ∀ i, ((s.leaseAt i).map Lease.windowMark).getD false = true → s.handleAt i ∈ s.windowClaims

/-- Every controller holds the lease demand that the table gives its domain (R17, R18). -/
abbrev DemandLaw (s : State) : Prop := ∀ d, (s.ctrl d).leaseDemand = s.tableDemand d

/-! ## Notices and ports (chapters 10 and 12) -/

/-- An entry's subject and detail are of its kind's type, and its count is 1 to 255 (R153, R154). -/
def entrySound (e : Entry) : Bool :=
  decide (1 ≤ e.count ∧ e.count ≤ Config.countMax)
    && (match e.kind, e.subject, e.detail with
        | .granted, .lease _, .level _ _ | .ungranted, .lease _, .level _ _ | .faulted, .lease _, .cause _ _
        | .lapsed, .lease _, .level _ _ | .revoked, .lease _, .level _ _ | .offered, .lease _, .offered _ _ _ _
        | .offerEnded, .lease _, .ended _ _ | .watchFired, .watch _, .handle _ | .domainFault, .domain _, .fault _
        | .bootLapsed, .domain _, .boot _ _ => true
        | _, _, _ => false)

/-- A queue holds at most 16 entries, no two of one kind and subject, and ATTN_N is asserted exactly while it holds
an entry or its marker is set (R153, R160). -/
def queueSound (q : Queue) : Bool :=
  decide (q.entries.length ≤ Config.queueDepth)
    && decide (q.entries.map (fun e => (e.kind, e.subject))).Nodup
    && q.entries.all entrySound
    && decide (q.attn = (!q.entries.isEmpty || q.overrun))

/-- Every notice queue is sound. -/
abbrev QueueLaw (s : State) : Prop := ∀ c, queueSound (s.queue c) = true

/-- An answer carries a body only with OK, and at most 50 bytes of it (R174, R180). -/
def answerSound (a : Answer) : Bool := decide (a.body.length ≤ 50) && decide (a.status = .ok ∨ a.body = [])

/-- A port holds a request of at most 24 body bytes, a saved answer exactly when it has a sequence memory, and
answers that fit the frame (R170, R171, R174). -/
def portSound (p : Port) : Bool :=
  (match p.state with
    | .idle => true
    | .held r => decide (r.body.length ≤ Config.maxBody)
    | .ready a => answerSound a)
    && decide (p.saved.isSome = p.memory.isSome) && (p.saved.map answerSound).getD true

/-- Every port record is sound. -/
abbrev PortLaw (s : State) : Prop := ∀ c, portSound (s.port c) = true

/-! ## Controllers (chapters 5 to 7) -/

/-- The outputs of a controller's state (R87). -/
def rowPins (r : Ctrl) : Pins :=
  match r.state with
  | .off | .discharge | .fault => Pins.offRow
  | .powering => { pen := true, dclk := .stopped, iso := true, drst := true }
  | .held | .linger .hold => { pen := true, dclk := .stopped, iso := true, drst := r.cold }
  | .starting .slow => { pen := true, dclk := .divided r.divisor, iso := true, drst := r.cold }
  | .starting .full => { pen := true, dclk := .undivided, iso := true, drst := r.cold }
  | .slow | .linger .slow => { pen := true, dclk := .divided r.divisor, iso := false, drst := false }
  | .full | .linger .full => { pen := true, dclk := .undivided, iso := false, drst := false }

/-- Whether a controller state has the cold flag set always, never, or either way (R89). -/
def coldSound (r : Ctrl) : Bool :=
  match r.state with
  | .off | .powering | .discharge | .fault => r.cold
  | .slow | .full | .linger .slow | .linger .full => !r.cold
  | .held | .starting _ | .linger .hold => true

/-- The setup fields are in their ranges (R74). -/
def setupSound (x : Setup) : Bool :=
  decide (1 ≤ x.ramp ∧ x.ramp ≤ 255 ∧ x.settle ≤ 255 ∧ x.linger ≤ 255 ∧ 1 ≤ x.discharge ∧ x.discharge ≤ 255)

/-- A controller's outputs, cold flag, timer and ranges agree with its state, and a loss waits only while PGOOD is
absent (R74, R77, R87, R89, R112). -/
def ctrlSound (r : Ctrl) : Bool :=
  decide (r.pins = rowPins r) && coldSound r && (timed r.state || decide (r.timer = 0))
    && decide (r.timer ≤ 255) && setupSound r.setup && decide (1 ≤ r.divisor ∧ r.divisor ≤ 8)
    && !(r.pgood && r.lossPending)

/-- Every controller is sound. -/
abbrev OutputLaw (s : State) : Prop := ∀ d, ctrlSound (s.ctrl d) = true

/-- No timer that has run out stands: a controller in a timed state has ticks left, and one in POWERING has no PGOOD (R77,
R79). -/
abbrev EndLaw (s : State) : Prop :=
  ∀ d, (timed (s.ctrl d).state = true → 0 < (s.ctrl d).timer) ∧ ((s.ctrl d).state = .powering → (s.ctrl d).pgood = false)

/-- CRST_N is asserted exactly while the home domain is cold, the restart pulse runs or the tie of R141 stands, and a
pulse is at most 4. The tie stands only over a warm home, a pulse that has ended and an event that waits at the home
(R140, R141; notes/assumptions 32). -/
abbrev ResetLineLaw (s : State) : Prop :=
  ∀ c, (s.client c).crst = ((s.ctrl (homeOf c)).cold || decide (0 < (s.client c).pulse) || (s.client c).tied)
    ∧ (s.client c).pulse ≤ Config.pulseTicks
    ∧ ((s.client c).tied = true →
        (s.ctrl (homeOf c)).cold = false ∧ (s.client c).pulse = 0 ∧ (s.ctrl (homeOf c)).eventWaits = true)

/-- A child that is STARTING or at a running level is counted toward its parent, stands under a parent at or above its
need, and has its need in the parent's derived demand (R97, R100). -/
def childHeld (s : State) (c : Dom) : Bool :=
  match (s.ctrl c).setup.parent with
  | none => true
  | some p =>
    !isStarted (s.ctrl c).state
      || ((s.ctrl c).counts
          && decide (reachRank (some (s.ctrl c).setup.need) ≤ reachRank (effLevel (s.ctrl p).state))
          && decide (reachRank (some (s.ctrl c).setup.need) ≤ reachRank (s.ctrl p).derivedDemand))

/-- No child runs above a parent that has fallen below its need (R100). -/
abbrev TreeLaw (s : State) : Prop := ∀ c, childHeld s c = true

/-- The tree is a forest: following parents upward from a domain's parent never reaches the domain (R95). -/
abbrev ForestLaw (s : State) : Prop := ∀ d, s.closesCycle d (s.ctrl d).setup.parent = false

/-- Whether a controller stands where the demand it holds puts it (R78 to R86, R116): in OFF without demand; in HELD
with a demand of HOLD, or withheld by its parent, or with a parent change on its way; at or STARTING toward the
level demanded; lingering above its demand; and anywhere in POWERING, DISCHARGE and FAULT, which wait. -/
def atDemand (s : State) (d : Dom) : Bool :=
  match (s.ctrl d).state, (s.ctrl d).demand with
  | .off, m => decide (m = none)
  | .held, none => false
  | .held, some .hold => true
  | .held, some _ => !s.permits d || (s.ctrl d).parentPending
  | .starting run, m => decide (m = some run.level)
  | .slow, m => decide (m = some .slow)
  | .full, m => decide (m = some .full)
  | .linger l, m => decide (reachRank m < reachRank (some l))
  | .powering, _ | .discharge, _ | .fault, _ => true

/-- No event is lost: a controller that does not stand where its demand puts it has a demand change on its way
(R76, R99). -/
abbrev SettledLaw (s : State) : Prop := ∀ d, ((s.ctrl d).demandPending || atDemand s d) = true

/-- A domain holds the highest need of its children that are counted as last handed on, and a domain is counted as its
state and demand stand unless it has a demand change on its way, whose event hands that on (R97, R98;
notes/assumptions 7, 8). -/
abbrev DerivedLaw (s : State) : Prop :=
  (∀ p, (s.ctrl p).derivedDemand = s.derivedFrom p)
    ∧ ∀ d, (s.ctrl d).demandPending = true ∨ (s.ctrl d).counts = (s.ctrl d).counted

/-! ## Rest (chapter 8) -/

/-- The part is asleep: QUIET or WAKING. -/
def State.asleep (s : State) : Bool := decide (s.rest.part = .quiet ∨ s.rest.part = .waking)

/-- While the part is QUIET or WAKING the table holds no lease, every domain is in OFF, and no internal claim waits
(R134, R136). -/
abbrev RestLaw (s : State) : Prop :=
  s.asleep = true →
    s.hasLease = false ∧ s.termClaims = [] ∧ s.windowClaims = [] ∧ s.adoptionMark = false
      ∧ (∀ w, ((s.watch w).map Watch.mark).getD false = false)
      ∧ ∀ d, (s.ctrl d).state = .off

/-- The rest timer stands at 1 to 16 in RESTING-PENDING, at 64 in WAKING, and at 0 otherwise; the divider stands at 0
to 31, and at 0 while a tick or a sample of its last period is still to come (R45, R132, R133, R135). -/
abbrev TimerLaw (s : State) : Prop :=
  (s.rest.part = .awake ∨ s.rest.part = .quiet → s.rest.timer = 0)
  ∧ (s.rest.part = .restingPending → 1 ≤ s.rest.timer ∧ s.rest.timer ≤ Config.restDelay)
  ∧ (s.rest.part = .waking → s.rest.timer = Config.wakingPeriods)
  ∧ s.rest.divider ≤ 31 ∧ (s.rest.due ≠ .none → s.rest.divider = 0)

/-- The part state agrees with the rest conditions as they stand: AWAKE only where they fail, RESTING-PENDING only
where they hold, QUIET only where nothing wakes the part (R132 to R134). -/
abbrev JudgedLaw (s : State) : Prop :=
  s.resetLow = false →
    (s.rest.part = .awake → s.restConditions = false) ∧ (s.rest.part = .restingPending → s.restConditions = true)
      ∧ (s.rest.part = .quiet → s.wakeCondition = false)

/-! ## The part held (chapter 11) -/

/-- While RESET_N is low the part is blank but for its inputs, MISO, the plan in force, the record of the last step
and the queue of commands (R162). -/
abbrev HeldLaw (s : State) : Prop := s.resetLow = true → s = s.blank

end Sys2Proof.Machine
end

