-- ==== Sys2Proof/Certificates/Slice0/Obligations.lean ====
section
/-! DEFINITION. The statements for the provers, with the few words they share. A premise on the state that names a
law of Safety.lean rules out states no run reaches; that every step keeps each law is stated here too. -/

open Sys2Proof Sys2Proof.Machine

/-! ## The words the statements share -/

namespace Sys2Proof.Statement

/-- The command that takes a request of a kind. -/
def commandOf : ReqKind → Instr
  | .leaseTake => .leaseTake
  | .leaseRenew => .leaseRenew
  | .leaseAlter => .leaseAlter
  | .leaseRelease => .leaseRelease
  | .leaseRead => .leaseRead
  | .leaseList => .leaseList
  | .leaseRevoke => .leaseRevoke
  | .leaseOffer => .leaseOffer
  | .leaseWithdraw => .leaseWithdraw
  | .leaseAccept => .leaseAccept
  | .leaseAdopt => .leaseAdopt
  | .watchSet => .watchSet
  | .watchDrop => .watchDrop
  | .watchRead => .watchRead
  | .linesRead => .linesRead
  | .domainRead => .domainRead
  | .domainSetup => .domainSetup
  | .domainDivide => .domainDivide
  | .domainClear => .domainClear
  | .clientStatus => .clientStatus
  | .clientClearCause => .clientClearCause
  | .clientQuota => .clientQuota
  | .clientRestart => .clientRestart
  | .superPass => .superPass
  | .noticeFetch => .noticeFetch
  | .partIdent => .partIdent

/-- It is the turn of request `r` of kind `k`, held at port `p`, and the engine takes claims (R20, R136). -/
abbrev Turn (s : State) (p : Client) (r : Request) (k : ReqKind) : Prop :=
  s.running = true ∧ s.nextRequest = some (p, r) ∧ r.kind = k

/-- The answer a take forms at port `p`: the status and the body, the echoes of the request, the pending flags as
they stood, and ATTN as it stands after the take's changes (R174, R176). -/
def answerOf (s t : State) (p : Client) (r : Request) (status : Status) (body : List Byte) : Answer :=
  { status := status
    flags :=
      { priorDiscarded := (s.port p).priorDiscarded, busyDrop := (s.port p).busyDrop, torn := (s.port p).torn
        replay := false, attn := (t.queue p).attn }
    seqEcho := r.seq.setWidth 8
    kindEcho := byteOf r.kind.code
    body := body }

/-- Port `p` has its answer, waiting and saved, its sequence memory set and its pending flags cleared; the other
ports are as they were; the turn is the next port's (R20, R174, R176). -/
abbrev Answered (s t : State) (p : Client) (r : Request) (status : Status) (body : List Byte) : Prop :=
  t.port p
      = { state := .ready (answerOf s t p r status body), saved := some (answerOf s t p r status body)
          memory := some r.seq, priorDiscarded := false, busyDrop := false, torn := false }
    ∧ (∀ c, c ≠ p → t.port c = s.port c) ∧ t.turn = p + 1

/-- Rest Control at the end of a step that leads to `t`, from what it held before the end: RESTING-PENDING with its
delay of 16 where the rest conditions have come to hold, AWAKE with the delay stopped where one of them stopped holding,
WAKING with its 64 periods where something wakes the part; otherwise as it was, the delay and WAKING included (R132 to
R136). Nothing is judged while RESET_N is low (R137). -/
def judgedRest (r : Rest) (t : State) : Rest :=
  if t.resetLow then r
  else
    match r.part with
    | .awake => if t.restConditions then { r with part := .restingPending, timer := 16 } else r
    | .restingPending => if t.restConditions then r else { r with part := .awake, timer := 0 }
    | .quiet => if t.wakeCondition then { r with part := .waking, timer := 64 } else r
    | .waking => r

/-- Rest Control changes by its judgement at the end of the step alone. -/
abbrev RestJudged (s t : State) : Prop := t.rest = judgedRest s.rest t

/-- The derived demand of domain `d` at the end of a take that leads to `t`: handed anew where the lease demand of a
child moved (R98). -/
def derivedAfterTake (s t : State) (d : Dom) : Reach :=
  if ∃ c, (s.ctrl c).setup.parent = some d ∧ t.tableDemand c ≠ (s.ctrl c).leaseDemand then t.derivedFrom d
  else (s.ctrl d).derivedDemand

/-- What the hand-over at the end of a take leaves: every controller holds the lease demand of the table as the take
left it; a domain whose lease demand moved is counted anew, and its parent is handed its derived demand; a controller
whose demand moved has a demand change on its way; nothing else of a controller changes (R18, R76, R97, R98; the mark
that waits and the count as handed on are the model's, notes/assumptions 7 and 8). -/
abbrev OnlyHanded (s t : State) : Prop :=
  ∀ d, t.ctrl d
    = { s.ctrl d with
        leaseDemand := t.tableDemand d
        derivedDemand := derivedAfterTake s t d
        counts :=
          if t.tableDemand d = (s.ctrl d).leaseDemand then (s.ctrl d).counts
          else Ctrl.counted { s.ctrl d with leaseDemand := t.tableDemand d }
        demandPending :=
          (s.ctrl d).demandPending || decide (reachMax (t.tableDemand d) (s.ctrl d).derivedDemand ≠ (s.ctrl d).demand)
            || decide (reachMax (t.tableDemand d) (derivedAfterTake s t d)
                ≠ reachMax (t.tableDemand d) (s.ctrl d).derivedDemand) }

/-- Every slot but `i` is as it was. -/
abbrev OtherSlots (s t : State) (i : SlotNo) : Prop := ∀ j, j ≠ i → t.slot j = s.slot j

/-- Slot `i` is the lowest-numbered FREE slot (R3). -/
abbrev LowestFree (s : State) (i : SlotNo) : Prop :=
  (s.slot i).cond = .free ∧ ∀ j, j < i → (s.slot j).cond ≠ .free

/-- The handle names the lease `l` (R5). -/
abbrev Names (s : State) (h : Handle) (l : Lease) : Prop := s.slot h.slot = { gen := h.gen, cond := .lease l }

/-- The status with which a taken request is refused, by the first of its checks that fails, in the order the request's
rule gives them; none where every check passes (R24, R26, R29, R32, R34, R37 to R39, R41, R61, R64, R65, R91, R92, R94,
R117, R124, R129, R131, R149, R150, R152, R158, R167). -/
def refusal (s : State) (p : Client) (r : Request) : Option Status :=
  let staleOr (h : Handle) (k : Lease → Option Status) : Option Status :=
    match s.named h with
    | none => some .stale
    | some l => k l
  let ownerOr (l : Lease) (k : Option Status) : Option Status := if l.owner = .client p then k else some .notOwner
  let roleOr (k : Option Status) : Option Status := if s.supervisor = p then k else some .notSupervisor
  let quotaOr (k : Option Status) : Option Status := if s.charge p < (s.client p).quota then k else some .quota
  let slotOr (k : Option Status) : Option Status := if ∃ i, (s.slot i).cond = .free then k else some .tableFull
  match r.kind with
  | .leaseTake =>
    match takeArgs r.body with
    | none => some .badArgument
    | some _ => quotaOr (slotOr none)
  | .leaseRenew =>
    match renewArgs r.body with
    | none => some .badArgument
    | some (h, nt) =>
      staleOr h (fun l => ownerOr l (if nt = none ∧ l.term = 0 then some .badArgument else none))
  | .leaseAlter =>
    match alterArgs r.body with
    | none => some .badArgument
    | some (h, _) => staleOr h (fun l => ownerOr l none)
  | .leaseRelease =>
    match handleArgs r.body with
    | none => some .badArgument
    | some h => staleOr h (fun l => ownerOr l none)
  | .leaseRead =>
    match handleArgs r.body with
    | none => some .badArgument
    | some h => staleOr h (fun _ => none)
  | .leaseList => if listArgs r.body = none then some .badArgument else none
  | .leaseRevoke =>
    match handleArgs r.body with
    | none => some .badArgument
    | some h => roleOr (staleOr h (fun _ => none))
  | .leaseOffer =>
    match offerArgs r.body with
    | none => some .badArgument
    | some (h, target, _) =>
      staleOr h (fun l => ownerOr l (
        if target = p then some .self
        else if l.offer ≠ none then some .offerOpen
        else if l.binding ≠ none then some .bound
        else none))
  | .leaseWithdraw =>
    match handleArgs r.body with
    | none => some .badArgument
    | some h => staleOr h (fun l => ownerOr l (if l.offer = none then some .notOffered else none))
  | .leaseAccept =>
    match handleArgs r.body with
    | none => some .badArgument
    | some h => staleOr h (fun l => if l.offer.map Offer.target = some p then quotaOr none else some .notOffered)
  | .leaseAdopt =>
    match adoptArgs r.body with
    | none => some .badArgument
    | some (h, _) => staleOr h (fun l => if l.owner = .boot then quotaOr none else some .notOffered)
  | .watchSet =>
    match watchSetArgs r.body with
    | none => some .badArgument
    | some _ => if ∃ w, s.watch w = none then quotaOr (slotOr none) else some .watchesFull
  | .watchDrop =>
    match codeArgs 16 r.body with
    | none => some .badArgument
    | some w =>
      match s.watch w with
      | none => some .noWatch
      | some x => if x.owner = p then none else some .notOwner
  | .watchRead =>
    match codeArgs 16 r.body with
    | none => some .badArgument
    | some w => if s.watch w = none then some .noWatch else none
  | .domainRead => if codeArgs 8 r.body = none then some .badArgument else none
  | .domainSetup =>
    match setupArgs r.body with
    | none => some .badArgument
    | some (d, x) =>
      roleOr (
        if (s.ctrl d).state ≠ .off ∨ s.leaseCount d ≠ 0 then some .domainBusy
        else if s.closesCycle d x.parent = true then some .cycle
        else none)
  | .domainDivide => if divideArgs r.body = none then some .badArgument else roleOr none
  | .domainClear =>
    match codeArgs 8 r.body with
    | none => some .badArgument
    | some d => roleOr (if (s.ctrl d).state = .fault then none else some .notFaulted)
  | .clientQuota =>
    match quotaArgs r.body with
    | none => some .badArgument
    | some (c, q) => roleOr (if q < s.charge c then some .badArgument else none)
  | .clientRestart | .superPass =>
    match codeArgs 4 r.body with
    | none => some .badArgument
    | some c => roleOr (if c = p then some .self else none)
  | .noticeFetch =>
    if (s.queue p).entries ≠ [] then none else if (s.queue p).overrun then some .overrun else some .empty
  | .linesRead | .clientStatus | .clientClearCause | .partIdent => none

/-- The remaining term of a term: the term itself, or absent for 0 (R6). -/
def fullTerm (term : Nat) : Option Nat := if term = 0 then none else some term

/-- The status byte of a lease at a level on a domain (R15, R180). -/
def statusByte (s : State) (d : Dom) (level : Level) : Byte := (leaseStatus (s.ctrl d).state level).code

/-- The bytes of a field of an image: `len` of them from an offset. -/
def field (image : List Byte) (offset len : Nat) : List Byte := (image.drop offset).take len

/-- What is left in a slot whose lease is retired: the next generation, and the slot FREE, or RESERVED for the
watch the lease was bound to (R2, R4). -/
def leftBy (g : Gen) (l : Lease) : SlotRec :=
  { gen := g + 1, cond := match l.binding with | none => .free | some w => .reserved w }

/-- The mark of a watch that becomes ARMED: a LOW watch with a masked line low in the present sample has its claim
raised at once (R126). -/
def firesAtOnce (u : WakeUnit) (sense : Sense) (bank : Fin 3) (mask : BitVec 8) : Bool :=
  decide (sense = .low ∧ mask &&& ~~~ bankOf bank u.present ≠ 0)

/-- A watch ARMED again: the lines that have left the present sample are stale for it (R128; the record of stale lines is
the model's, notes/assumptions 28). -/
def rearmed (u : WakeUnit) (r : Watch) : Watch :=
  { r with
    state := .armed, mark := firesAtOnce u r.sense r.bank r.mask, stale := bankOf r.bank (u.lines ^^^ u.present) }

/-- A notice with the client it goes to. -/
abbrev Note : Type := Client × NoticeKind × Subject × Detail

/-- The change of ATTN_N of client `c` from `s` to `t`, where it moves (R160). -/
def attnChange (s t : State) (c : Client) : List PinChange :=
  if (t.queue c).attn = (s.queue c).attn then [] else [.attn c (t.queue c).attn]

/-- The changes of CRST_N from `s` to `t`. -/
def crstChanges (s t : State) : List PinChange :=
  ((List.finRange 4).filter (fun c => decide ((t.client c).crst ≠ (s.client c).crst))).map
    (fun c => .crst c (t.client c).crst)

/-- A value counts the slots that have a property. -/
abbrev Counts (n : Nat) (P : SlotNo → Prop) : Prop :=
  ∃ xs : List SlotNo, xs.Nodup ∧ xs.length = n ∧ ∀ i, i ∈ xs ↔ P i

/-- Notices that reach their queues one at a time, in the order given (R155, R157). -/
def appendAll (s : State) (ns : List Note) : State :=
  ns.foldl (fun t n => t.notify n.1 n.2.1 n.2.2.1 n.2.2.2) s

/-- A notice about each of some leases to its owner; a notice to the owner of a BOOT lease is not produced (R153). -/
def toOwners (s : State) (xs : List (SlotNo × Lease)) (k : NoticeKind) (det : Lease → Detail) : List Note :=
  xs.filterMap (fun x =>
    match x.2.owner with
    | .client c => some (c, k, .lease (s.handleAt x.1), det x.2)
    | .boot => none)

/-- What a teardown of client `c` leaves in the slots, where `gone` says which leases it retires: those retired, and
every offer to the client ended (R145, R147). -/
abbrev SlotsTornDown (s t : State) (c : Client) (gone : SlotNo → Lease → Bool) : Prop :=
  ∀ i,
    t.slot i =
      match (s.slot i).cond with
      | .free | .reserved _ => s.slot i
      | .lease l =>
        if gone i l then leftBy (s.slot i).gen l
        else
          { gen := (s.slot i).gen
            cond := .lease { l with offer := if l.offer.map Offer.target = some c then none else l.offer } }

/-- The watches of retired bound leases are ARMED again, every other is as it was (R128, R147). -/
abbrev WatchesTornDown (s t : State) (gone : SlotNo → Lease → Bool) : Prop :=
  (∀ i l w r, s.leaseAt i = some l → gone i l = true → l.binding = some w → s.watch w = some r →
    t.watch w = some (rearmed s.wake r))
  ∧ ∀ w, (∀ i l, s.leaseAt i = some l → gone i l = true → l.binding ≠ some w) → t.watch w = s.watch w

/-- OFFER_ENDED with TARGET_GONE to the offerer of each lease offered to `c` that stays, in ascending creation number
(R71, R73). -/
def goneNotes (s : State) (c : Client) (gone : SlotNo → Lease → Bool) : List Note :=
  toOwners s (s.leases.filter (fun x => decide (x.2.offer.map Offer.target = some c) && !gone x.1 x.2)) .offerEnded
    (fun _ => .ended c .targetGone)

/-- The offerers are told, and nothing else reaches a queue but that of `c` (R71, R73, R161). -/
abbrev OfferersTold (s t : State) (c : Client) (gone : SlotNo → Lease → Bool) : Prop :=
  ∀ o, o ≠ c → t.queue o = (appendAll s (goneNotes s c gone)).queue o

/-- The client restart of `c`, with `f` adding the cause flag. The offerers are told, then the client's queue is emptied,
then CRST_N is asserted, and no other output moves (R147). -/
abbrev Restarted (s t : State) (c : Client) (f : CauseFlags → CauseFlags) (gone : SlotNo → Lease → Bool) : Prop :=
  SlotsTornDown s t c gone ∧ WatchesTornDown s t gone ∧ OfferersTold s t c gone
    ∧ t.port c = Port.initial ∧ t.queue c = Queue.initial
    ∧ t.client c = { s.client c with causes := f (s.client c).causes, pulse := 4, crst := true, tied := false }
    ∧ (∀ o, o ≠ c → t.client o = s.client o)
    ∧ t.changes = (appendAll s.begin (goneNotes s c gone)).changes ++ attnChange s t c ++ crstChanges s t

/-! ### Where a controller goes (the table of chapter 5) -/

/-- The state and timer after HELD with no demand: LINGER at HOLD, which a linger of 0 ends at once (R77, R84). -/
def lingerHoldPlace (r : Ctrl) : DomState × Nat :=
  if r.setup.linger = 0 then (.discharge, r.setup.discharge) else (.linger .hold, r.setup.linger)

/-- The state and timer after a start: STARTING, which a settle time of 0 ends at once, in the running level or, with
monitor-in-hold off and PGOOD absent, in FAULT (R77, R81, R82, R111). -/
def startPlace (r : Ctrl) (run : Run) : DomState × Nat :=
  if r.setup.settle ≠ 0 then (.starting run, r.setup.settle)
  else if r.setup.monitor = false ∧ r.pgood = false then (.fault, 0)
  else (run.state, 0)

/-- Where a domain in HELD goes at once (R80). -/
def heldPlace (r : Ctrl) (permitted : Bool) : DomState × Nat :=
  match r.demand with
  | none => lingerHoldPlace r
  | some .hold => (.held, 0)
  | some .slow => if permitted then startPlace r .slow else (.held, 0)
  | some .full => if permitted then startPlace r .full else (.held, 0)

/-- Where a domain that is powered goes: POWERING, which a PGOOD already present ends at once (R79). -/
def powerPlace (r : Ctrl) (permitted : Bool) : DomState × Nat :=
  if r.pgood then heldPlace r permitted else (.powering, r.setup.ramp)

/-- Where the end or the cancel of a linger at a running level leads (R84, R85). -/
def fallPlace (r : Ctrl) (permitted : Bool) : DomState × Nat :=
  match r.demand with
  | some .full => (.full, 0)
  | some .slow => (.slow, 0)
  | some .hold | none => heldPlace r permitted

/-- Where a running domain whose demand fell below its level goes: LINGER, which a linger of 0 ends at once (R77,
R84). -/
def lingerRunPlace (r : Ctrl) (permitted : Bool) (run : Run) : DomState × Nat :=
  if r.setup.linger = 0 then fallPlace r permitted else (.linger run.level, r.setup.linger)

/-- Where the end or the cancel of a linger leads (R84, R85). -/
def lingerPlace (r : Ctrl) (permitted : Bool) (l : Level) : DomState × Nat :=
  match l with
  | .hold => if r.demand = none then (.discharge, r.setup.discharge) else heldPlace r permitted
  | .slow | .full => fallPlace r permitted

/-- Where a demand change takes a controller (R78 to R86, R116). -/
def demandPlace (r : Ctrl) (permitted : Bool) : DomState × Nat :=
  match r.state, r.demand with
  | .off, none => (.off, 0)
  | .off, some _ => powerPlace r permitted
  | .held, _ => heldPlace r permitted
  | .starting _, some .slow => (.starting .slow, r.timer)
  | .starting _, some .full => (.starting .full, r.timer)
  | .starting _, _ => heldPlace r permitted
  | .slow, some .full => (.full, 0)
  | .slow, some .slow => (.slow, 0)
  | .slow, _ => lingerRunPlace r permitted .slow
  | .full, some .full => (.full, 0)
  | .full, _ => lingerRunPlace r permitted .full
  | .linger l, m => if reachRank m < reachRank (some l) then (.linger l, r.timer) else lingerPlace r permitted l
  | .powering, _ | .discharge, _ | .fault, _ => (r.state, r.timer)

/-- The record of a controller at a place: its cold flag and its outputs are those of the state it is in (R87, R89). -/
def placed (r : Ctrl) (place : DomState × Nat) : Ctrl :=
  let x : Ctrl :=
    { r with
      state := place.1, timer := place.2
      cold := match place.1 with
        | .off | .powering | .discharge | .fault => true
        | .slow | .full | .linger .slow | .linger .full => false
        | .held | .starting _ | .linger .hold => r.cold }
  { x with pins := rowPins x }

/-- The changes that take the outputs of domain `d` from `p` to `q`, in the order of R88, which one order serves upward and
downward: PEN asserted, ISO_N asserted, DCLK, DRST_N, ISO_N released, PEN removed. An output that already stands where it goes
makes no change. -/
def orderedChanges (d : Dom) (p q : Pins) : List PinChange :=
  (if q.pen && !p.pen then [.pen d true] else []) ++ (if q.iso && !p.iso then [.iso d true] else [])
    ++ (if q.dclk = p.dclk then [] else [.dclk d q.dclk]) ++ (if q.drst = p.drst then [] else [.drst d q.drst])
    ++ (if p.iso && !q.iso then [.iso d false] else []) ++ (if p.pen && !q.pen then [.pen d false] else [])

/-- The changes that drop a domain's outputs on entry into FAULT, in their order (R88): ISO_N, DCLK, DRST_N, PEN. -/
def dropChanges (d : Dom) (p : Pins) : List PinChange := orderedChanges d p Pins.offRow

/-- The domain whose PEN, DCLK, ISO_N or DRST_N a change moves; none for CRST_N and ATTN_N. -/
def outputOf : PinChange → Option Dom
  | .pen d _ | .dclk d _ | .iso d _ | .drst d _ => some d
  | .crst _ _ | .attn _ _ => none

/-- What a controller event leaves alone: everything but controllers, client records, queues, and the records of this
step and of Rest Control (R75). -/
abbrev EventFrame (s t : State) : Prop :=
  t = { s with
    ctrls := t.ctrls, clients := t.clients, queues := t.queues, rest := t.rest, changes := t.changes }

/-- A controller record `x` of domain `e` with what a controller event that leads from `s` to `t` hands it: its derived
demand, with a demand change where that moved its demand, and a parent change where its parent's effective level crossed
its need (R76, R98, R99). -/
def handed (s t : State) (e : Dom) (x : Ctrl) : Ctrl :=
  { x with
    derivedDemand := t.derivedFrom e
    demandPending := x.demandPending || decide (reachMax x.leaseDemand (t.derivedFrom e) ≠ x.demand)
    parentPending := x.parentPending ||
      (match x.setup.parent with
        | none => false
        | some p =>
          decide (reachRank (some x.setup.need) ≤ reachRank (effLevel (s.ctrl p).state))
            != decide (reachRank (some x.setup.need) ≤ reachRank (effLevel (t.ctrl p).state))) }

/-- Whether the tie of R141 stands on in `t` for a client: its home is still warm, and an event still waits there (R141;
notes/assumptions 32). -/
def stillTied (s t : State) (c : Client) : Bool :=
  (s.client c).tied
    && decide ((t.ctrl (homeOf c)).cold = false
      ∧ ((t.ctrl (homeOf c)).demandPending = true ∨ (t.ctrl (homeOf c)).parentPending = true
        ∨ (t.ctrl (homeOf c)).lossPending = true))

/-- CRST_N of every client follows its home domain and its pulse, and the tie of R141 where it stands on; the client whose
home `d` is has `lost` more home-lost events (R89, R140, R141). -/
abbrev ClientsFollow (s t : State) (d : Dom) (lost : Nat) : Prop :=
  ∀ c, t.client c
    = { s.client c with
        crst := (t.ctrl (homeOf c)).cold || decide (0 < (s.client c).pulse) || stillTied s t c
        tied := stillTied s t c
        homeLostPending := (s.client c).homeLostPending + (if homeOf c = d then lost else 0) }

/-- GRANTED to the owner of each lease whose level the rise of domain `d` meets, in ascending creation number (R90). -/
def grantNotes (s t : State) (d : Dom) : List Note :=
  match effLevel (t.ctrl d).state with
  | none => []
  | some now =>
    toOwners s
      (s.leases.filter (fun x =>
        decide (x.2.domain = d ∧ reachRank (effLevel (s.ctrl d).state) < reachRank (some x.2.level)
          ∧ reachRank (some x.2.level) ≤ reachRank (some now))))
      .granted (fun _ => .level d now)

/-- The outputs of a domain that an event leaves with the record `r` as the GRANTED notices of the event find them: those
it ends with, but with DCLK still stopped where the rise is that from POWERING to HELD and a start follows, which is a
passage of its own (R76, R90). -/
def grantedAt (s : State) (d : Dom) (r : Ctrl) : Pins :=
  if effLevel (s.ctrl d).state = none ∧ effLevel r.state = some .hold then { r.pins with dclk := .stopped } else r.pins

/-- An event that leaves domain `d` with the record `r`, counted anew toward its parent: every other controller is as it
was but for what it is handed; CRST_N follows; GRANTED is sent for a rise, and nothing else reaches a queue. The domain's
outputs change in their order through all the passages of the event, GRANTED and its ATTN_N come with the passage that
reaches the level the event ends on, CRST_N changes last, and no output of another domain changes (R76, R88 to R90, R97 to
R99, R140; when a demand change waits and a domain is counted is the model's, notes/assumptions 7 to 9, and so are that
GRANTED comes after the outputs of its own passage, notes/assumptions 31, and that the parent of a child that starts acts on
its demand in a command of its own, notes/assumptions 33). -/
abbrev Moved (s t : State) (d : Dom) (r : Ctrl) (lost : Nat) : Prop :=
  (∀ e, t.ctrl e = handed s t e (if e = d then { r with counts := r.counted } else s.ctrl e))
  ∧ ClientsFollow s t d lost ∧ t.queues = (appendAll s (grantNotes s t d)).queues
  ∧ t.changes
      = (appendAll { s with changes := s.changes ++ orderedChanges d (s.ctrl d).pins (grantedAt s d r) }
          (grantNotes s t d)).changes
        ++ orderedChanges d (grantedAt s d r) r.pins ++ crstChanges s t
  ∧ EventFrame s t

/-- The domains that the forced stop below a domain `p` stops, in their order: each started child whose need `p` no longer
meets, in ascending domain number, followed by the stop below that child. `off` says that `p` provides no level at all; a
stopped domain provides HOLD (R100, R104, R105). -/
def stopsBelow (s : State) : Nat → Dom → Bool → List Dom
  | 0, _, _ => []
  | fuel + 1, p, off =>
    ((List.finRange 8).filter (fun c =>
        decide ((s.ctrl c).setup.parent = some p ∧ isStarted (s.ctrl c).state = true
          ∧ (off = true ∨ (s.ctrl c).setup.need ≠ .hold)))).flatMap
      (fun c => c :: stopsBelow s fuel c false)

/-- The record of a domain that is stopped: HELD, or LINGER at HOLD and beyond where it has no demand, with its cold flag
as it stood, and counted toward its parent only for a demand of SLOW or above (R97, R104). -/
def stopped (x : Ctrl) : Ctrl :=
  placed { x with counts := decide (2 ≤ reachRank x.demand) }
    (if x.demand = none then lingerHoldPlace x else (.held, 0))

/-- The notices of an entry of domain `d` into FAULT about the domain itself: DOMAIN_FAULT to the supervisor, then FAULTED
to the owner of each lease on it, in ascending creation number (R114). -/
def faultNotes (s : State) (d : Dom) (cause : FaultCause) : List Note :=
  [(s.supervisor, .domainFault, .domain d, .fault cause)]
  ++ toOwners s (s.leases.filter (fun x => decide (x.2.domain = d))) .faulted (fun _ => .cause d cause)

/-- The notices of the stops below a domain `d` in FAULT: for each domain stopped, in the order of the stops, UNGRANTED to
the owner of each lease above HOLD that it provided, in ascending creation number (R106). -/
def stopNotes (s : State) (d : Dom) : List Note :=
  (stopsBelow s 8 d true).flatMap (fun e =>
    toOwners s
      (s.leases.filter (fun x =>
        decide (x.2.domain = e ∧ x.2.level ≠ .hold
          ∧ reachRank (some x.2.level) ≤ reachRank (effLevel (s.ctrl e).state))))
      .ungranted (fun _ => .level e .hold))

/-- The outputs of a domain, with the record `r`, as its entry into FAULT finds them: those of its state, but with DCLK
started where a start from HELD or LINGER at HOLD, whose settle time is 0, fails its recheck within the event (R81, R88,
R111). -/
def faultedFrom (r : Ctrl) (cause : FaultCause) : Pins :=
  if cause = .recheck ∧ (r.state = .held ∨ r.state = .linger .hold) then
    { r.pins with dclk := if r.demand = some .full then .undivided else .divided r.divisor }
  else r.pins

/-- The record of changes of an entry of domain `d` into FAULT up to the stops below it: the domain's own outputs, then the
ATTN_N that its own notices move (R88, R113, R114). -/
def faultChanges (s : State) (d : Dom) (r : Ctrl) (cause : FaultCause) : List PinChange :=
  (appendAll
    { s with
      changes := s.changes ++ orderedChanges d r.pins (faultedFrom r cause) ++ dropChanges d (faultedFrom r cause) }
    (faultNotes s d cause)).changes

/-- An event that takes domain `d`, with the record `r`, into FAULT with a cause: outputs dropped, cold, cause recorded,
counted no longer toward its parent; the domains below it that lose their permission are stopped, and every other domain
is as it was; all are handed what follows. The supervisor and the owners are told, in order; a home domain's client has
one more home-lost event, and CRST_N follows. The domain's own outputs change first, then its own notices move ATTN_N, then
the outputs of each domain stopped change, one domain after another, ISO_N asserted before its DCLK stops, and no other
domain's (R88, R89, R97 to R100, R104 to R107, R112 to R115, R140; notes/assumptions 7 to 9 and 19). -/
abbrev Faulted (s t : State) (d : Dom) (r : Ctrl) (cause : FaultCause) : Prop :=
  (∀ e, t.ctrl e
    = handed s t e
        (if e = d then
          { r with
            state := .fault, timer := 0, cold := true, cause := cause, counts := false
            pins := { pen := false, dclk := .stopped, iso := true, drst := true } }
        else if e ∈ stopsBelow s 8 d true then stopped (s.ctrl e)
        else s.ctrl e))
  ∧ ClientsFollow s t d 1 ∧ t.queues = (appendAll s (faultNotes s d cause ++ stopNotes s d)).queues
  ∧ faultChanges s d r cause <+: t.changes
  ∧ (t.changes.drop (faultChanges s d r cause).length).filter (fun x => (outputOf x).isSome)
      = (stopsBelow s 8 d true).flatMap (fun e => orderedChanges e (s.ctrl e).pins (t.ctrl e).pins)
  ∧ EventFrame s t

/-! ### A tick -/

/-- Whether a tick brings the lease's remaining term from 1 to 0 and raises its claim (R49). -/
abbrev TermEnds (l : Lease) : Prop := l.owner ≠ .boot ∧ l.remaining = some 1 ∧ l.expiryMark = false

/-- Whether a tick brings the window of the lease's offer from 1 to 0 and raises its claim (R60). -/
abbrev WindowEnds (l : Lease) : Prop := l.offer.map Offer.window = some 1 ∧ l.windowMark = false

/-- A lease after a tick (R47, R49, R60). -/
def loweredLease (l : Lease) : Lease :=
  { l with
    remaining := l.remaining.map (fun n => n - 1)
    offer := l.offer.map (fun o => { o with window := o.window - 1 })
    expiryMark := l.expiryMark || decide (TermEnds l)
    windowMark := l.windowMark || decide (WindowEnds l) }

/-- What a tick counts, from `s` to `u`: every remaining term, offer window, controller timer and the adoption window
above 0 goes down by one, and a claim is raised for each term or window that ends (R47, R49, R60, R77, R165). -/
abbrev Lowered (s u : State) : Prop :=
  (∀ i l, s.leaseAt i = some l → u.slot i = { gen := (s.slot i).gen, cond := .lease (loweredLease l) })
  ∧ (∀ i, s.leaseAt i = none → u.slot i = s.slot i)
  ∧ (∀ h, h ∈ u.termClaims ↔ h ∈ s.termClaims ∨ ∃ i l, s.leaseAt i = some l ∧ TermEnds l ∧ s.handleAt i = h)
  ∧ (∀ h, h ∈ u.windowClaims ↔ h ∈ s.windowClaims ∨ ∃ i l, s.leaseAt i = some l ∧ WindowEnds l ∧ s.handleAt i = h)
  ∧ u.adoption = s.adoption.map (fun n => n - 1)
  ∧ (u.adoptionMark = true ↔
      s.adoptionMark = true ∨ (s.adoption = some 1 ∧ ∃ i l, s.leaseAt i = some l ∧ l.owner = .boot))
  ∧ (∀ d, u.ctrl d = { s.ctrl d with timer := (s.ctrl d).timer - 1 })
  ∧ u = { s with
      slots := u.slots, termClaims := u.termClaims, windowClaims := u.windowClaims, adoption := u.adoption
      adoptionMark := u.adoptionMark, ctrls := u.ctrls, rest := u.rest, changes := [] }

/-- Where a timer end takes a controller (R82, R85, R86, R109). -/
def endPlace (r : Ctrl) (permitted : Bool) : DomState × Nat :=
  match r.state with
  | .powering => if r.pgood then (.powering, r.timer) else (.fault, 0)
  | .starting run => if r.setup.monitor = false ∧ r.pgood = false then (.fault, 0) else (run.state, 0)
  | .linger l => lingerPlace r permitted l
  | .discharge => if r.demand = none then (.off, 0) else powerPlace r permitted
  | .off | .held | .slow | .full | .fault => (r.state, r.timer)

/-- The timed step of domain `d`, from `u` to `v`, where its timer has run out: a RAMP or RECHECK fault, or the place where
the timer's end takes it (R77, R109, R111). A domain whose timer has not run out makes no step. -/
abbrev TimerEnded (u v : State) (d : Dom) : Prop :=
  if timed (u.ctrl d).state = true ∧ (u.ctrl d).timer = 0 then
    if (endPlace (u.ctrl d) (u.permits d)).1 = .fault then
      Faulted u v d (u.ctrl d) (if (u.ctrl d).state = .powering then .ramp else .recheck)
    else
      Moved u v d (placed (u.ctrl d) (endPlace (u.ctrl d) (u.permits d)))
        (if (u.ctrl d).state = .discharge then 1 else 0)
  else v = u

/-- The timed steps of some domains, one after another. -/
def EndsMade : List Dom → State → State → Prop
  | [], u, v => v = u
  | d :: ds, u, v => ∃ w, TimerEnded u w d ∧ EndsMade ds w v

/-- Whether a place is a cold one and the domain is warm (R89). -/
def cools (r : Ctrl) (place : DomState × Nat) : Bool := !r.cold && (placed r place).cold

/-- Whether an event that waits at a warm domain makes it cold: a demand change, a parent change or a loss of PGOOD (R89,
R141; that these are the events that come together with a tick is the model's reading, notes/assumptions 32). -/
def wouldCool (s : State) (d : Dom) : Bool :=
  let r := s.ctrl d
  (r.demandPending && cools r (demandPlace r (s.permits d)))
    || (r.parentPending && decide (r.state = .held) && cools r (heldPlace r (s.permits d)))
    || (r.lossPending && lossFaults r.setup.monitor r.state && !r.cold)

/-- A client's record after the tick at its restart pulse: the tick that ends the pulse releases CRST_N of a warm home, but
not in a tie with an event that makes the home cold (R140, R141). -/
def pulsed (v : State) (c : Client) : ClientRec :=
  let r := v.client c
  if r.pulse = 1 then
    { r with
      pulse := 0, tied := wouldCool v (homeOf c)
      crst := (v.ctrl (homeOf c)).cold || wouldCool v (homeOf c) }
  else { r with pulse := r.pulse - 1 }

/-- What is left of a tick that began in `s`, from `w` to `t`: the timed steps of the domains in a list, in its order, then
the restart pulses, then Rest Control, which goes to QUIET where the tick ends the rest delay with the rest conditions
holding (R45, R77, R133, R140, R141; the orders are the model's, notes/assumptions 27). -/
abbrev TickFinished (ds : List Dom) (s w t : State) : Prop :=
  ∃ v, EndsMade ds w v
    ∧ (∀ c, t.client c = pulsed v c)
    ∧ t.changes
        = v.changes ++ ((List.finRange 4).filter (fun c =>
              decide ((v.client c).pulse = 1 ∧ (v.client c).crst ≠ (pulsed v c).crst))).map
            (fun c => .crst c (pulsed v c).crst)
    ∧ t.rest
        = (let r : Rest :=
            { part := s.rest.part
              timer := if s.rest.part = .restingPending then s.rest.timer - 1 else s.rest.timer
              divider := 0
              due := if s.rest.due = .tick then .none else .sample }
           judgedRest
             (if s.rest.part = .restingPending ∧ s.rest.timer = 1 ∧ t.restConditions = true then
                { r with part := .quiet, timer := 0 }
              else r) t)
    ∧ t = { v with clients := t.clients, rest := t.rest, changes := t.changes }

/-- A tick comes: the engine's part runs, and this is the 32nd TREF period of a count, its sample made or still to come
(R45; notes/assumptions 6). -/
abbrev TickComes (s : State) : Prop :=
  s.running = true ∧ (s.rest.due = .tick ∨ (s.rest.due = .none ∧ s.rest.divider = 31))

/-- The laws of the controllers and CRST_N that a state keeps and the events of controllers rest on. -/
abbrev DomainLaws (s : State) : Prop :=
  OutputLaw s ∧ ResetLineLaw s ∧ ForestLaw s ∧ TreeLaw s ∧ DerivedLaw s

/-- Whether an ARMED watch without a claim fires at the sample that leaves the unit `u`: a masked line of its bank meets its
sense, where a change on a stale line does not count save through its latch (R122, R126, R128). -/
def fires (u : WakeUnit) (x : Watch) : Bool :=
  decide (x.state = .armed) && !x.mark
    && (List.finRange 8).any (fun i =>
      let was := u.previous.getLsbD (8 * x.bank.1 + i.1)
      let now := u.present.getLsbD (8 * x.bank.1 + i.1)
      let fresh := !x.stale.getLsbD i.1
      x.mask.getLsbD i.1
        && (match x.sense with
          | .low => !now
          | .fall => was && !now && fresh
          | .rise => !was && now && fresh
          | .change => ((was != now) && fresh) || u.latches.getLsbD (8 * x.bank.1 + i.1)))

/-- The record of domain `d` after part start, over its PGOOD, whether plan 3 gives D4 its derived demand, its lease
demand and the effective level of its parent, whose rise was handed to it: off without demand, else powered (R74, R78,
R96 to R99, R164). -/
def started (d : Dom) (pgood plan3 : Bool) (lease parentLevel : Reach) : Ctrl :=
  let x : Ctrl :=
    { Ctrl.initial d pgood with
      leaseDemand := lease, derivedDemand := if d = 4 ∧ plan3 = true then some .slow else none
      counts := decide (lease ≠ none)
      parentPending :=
        decide ((Config.defaultTree d).1 ≠ none ∧ reachRank (some (Config.defaultTree d).2) ≤ reachRank parentLevel) }
  placed x (if lease = none then (.off, 0) else powerPlace x (decide (x.setup.parent = none)))

end Sys2Proof.Statement

open Sys2Proof.Statement

/-! ## The machine -/

/-- A step takes the command at the front of the queue and runs it on the queue's rest; an empty queue idles (the
model's queue, notes/assumptions 1 and 4). -/
def Obligations.StepRunsFrontCommand : Prop :=
  (∀ (c : Instr) (s : State), step { s with pending := c :: s.pending } = exec c s)
  ∧ ∀ s : State, s.pending = [] → step s = .next s

/-- No command stops the part, and none touches the queue of commands. The spec answers every request and names no
stop (R172, R177); that a command whose step cannot happen, as a RAMP_END in OFF or a take with nothing held, answers a
next state too is the model's choice (notes/assumptions 2), and so is the queue (notes/assumptions 1). -/
def Obligations.EveryCommandGoesOn : Prop :=
  ∀ (c : Instr) (s : State), ∃ t, exec c s = .next t ∧ t.pending = s.pending

/-- The state at power-up has every output at its off or asserted-reset value (R162), and it has every law: the spec gives
the blocks no state while RESET_N is low, and that they stand at their part-start values then is the model's choice
(notes/assumptions 11). -/
def Obligations.PowerUpStateIsLawful : Prop :=
  TableLaw State.reset ∧ LeaseLaw State.reset ∧ CreationLaw State.reset ∧ QuotaLaw State.reset
  ∧ ClaimLaw State.reset ∧ DemandLaw State.reset ∧ QueueLaw State.reset ∧ PortLaw State.reset
  ∧ OutputLaw State.reset ∧ EndLaw State.reset ∧ ResetLineLaw State.reset ∧ TreeLaw State.reset ∧ ForestLaw State.reset
  ∧ SettledLaw State.reset ∧ DerivedLaw State.reset ∧ RestLaw State.reset ∧ JudgedLaw State.reset
  ∧ TimerLaw State.reset ∧ HeldLaw State.reset
  ∧ (∀ d, (State.reset.ctrl d).pins = { pen := false, dclk := .stopped, iso := true, drst := true })
  ∧ ∀ c, (State.reset.client c).crst = true ∧ (State.reset.queue c).attn = false

/-! ## The engine (chapter 1) -/

/-- The request taken is that of the first port that holds one, counting upward from the pointer. It is answered: the
request's echoes, the pending flags and ATTN, a body only with OK, waiting and saved; the sequence memory is set, and the
pointer goes past the port. While the engine takes no claims, and with no request held, nothing is taken (R20, R136, R174,
R176). That a take command of another kind leaves the state as it is follows from the model's reading of a take as the one
whose turn it is (notes/assumptions 3), and that one with nothing to take does is its choice (notes/assumptions 2). -/
def Obligations.RequestsAreTakenInTurn : Prop :=
  (∀ (s : State) (n : Fin 4) (r : Request), s.running = true →
    (s.port (s.turn + n)).state = .held r →
    (∀ m : Fin 4, m < n → ∀ q, (s.port (s.turn + m)).state ≠ .held q) →
    (∃ t status body, exec (commandOf r.kind) s = .next t ∧ (status ≠ .ok → body = [])
      ∧ t.port (s.turn + n)
          = { state := .ready (answerOf s t (s.turn + n) r status body)
              saved := some (answerOf s t (s.turn + n) r status body)
              memory := some r.seq, priorDiscarded := false, busyDrop := false, torn := false }
      ∧ t.turn = s.turn + n + 1
      ∧ ∀ c, c ≠ s.turn + n → r.kind ≠ .clientRestart → t.port c = s.port c)
    ∧ ∀ k, k ≠ r.kind → exec (commandOf k) s = .next s)
  ∧ ∀ (s : State) (k : ReqKind), s.running = false ∨ (∀ c r, (s.port c).state ≠ .held r) →
    exec (commandOf k) s = .next s

/-! ## Lease requests (chapter 2) -/

/-- An accepted LEASE.TAKE creates a lease in the lowest FREE slot with the values of R27, raises the counter by
one, answers handle, creation number and status, and hands on the lease demand; nothing else changes. `makeRoom` is the
renumbering of R10, and no change at all before the counter's last value (R3, R27, R28). -/
def Obligations.TakeCreatesLease : Prop :=
  ∀ (s : State) (p : Client) (r : Request) (a : Template) (i : SlotNo), Turn s p r .leaseTake →
    takeArgs r.body = some a → s.charge p < (s.client p).quota → LowestFree s i →
    ∃ t, exec .leaseTake s = .next t
      ∧ t.slot i
          = { gen := (s.slot i).gen
              cond := .lease
                { creation := s.makeRoom.counter + 1, owner := .client p, domain := a.domain, level := a.level
                  term := a.term, remaining := fullTerm a.term, lapse := a.lapse, tag := a.tag
                  survives := a.survives, binding := none, offer := none, expiryMark := false
                  windowMark := false } }
      ∧ OtherSlots s.makeRoom t i ∧ t.counter = s.makeRoom.counter + 1
      ∧ Answered s t p r .ok
          (handleBytes { slot := i, gen := (s.slot i).gen } ++ bytes4 t.counter
            ++ [statusByte s a.domain a.level])
      ∧ OnlyHanded s t
      ∧ t = { s with
          slots := t.slots, counter := t.counter, ctrls := t.ctrls, ports := t.ports, turn := t.turn
          rest := t.rest, changes := [] }
      ∧ RestJudged s t

/-- The renumbering that a creation makes first at the last value of the counter: the leases keep everything but
their creation numbers, keep their order, and take 1, 2 and onward, and the counter is their number; before the last
value it changes nothing (R10). -/
def Obligations.CreationRenumbersAtTheLastNumber : Prop :=
  (∀ s : State, s.counter ≠ Config.counterMax → s.makeRoom = s)
  ∧ ∀ s : State, CreationLaw s → s.counter = Config.counterMax →
    s.makeRoom = { s with slots := s.makeRoom.slots, counter := s.leasesBySlot.length }
    ∧ (∀ j, s.leaseAt j = none → s.makeRoom.slot j = s.slot j)
    ∧ (∀ j m, s.leaseAt j = some m →
        ∃ n, s.makeRoom.slot j = { gen := (s.slot j).gen, cond := .lease { m with creation := n } }
          ∧ 1 ≤ n ∧ n ≤ s.leasesBySlot.length)
    ∧ ∀ j k m m' n n', s.leaseAt j = some m → s.leaseAt k = some m' → m.creation < m'.creation →
        s.makeRoom.leaseAt j = some n → s.makeRoom.leaseAt k = some n' → n.creation < n'.creation

/-- An accepted LEASE.RENEW reloads the remaining term or sets the term, an accepted LEASE.ALTER sets the level;
every other field of the lease and everything else stays (R30, R32, R33). -/
def Obligations.RenewAndAlterWriteTheirFields : Prop :=
  (∀ (s : State) (p : Client) (r : Request) (h : Handle) (nt : Option Nat) (l l' : Lease), Turn s p r .leaseRenew →
    renewArgs r.body = some (h, nt) → Names s h l → l.owner = .client p → ¬ (nt = none ∧ l.term = 0) →
    DemandLaw s →
    l' = (match nt with
      | none => { l with remaining := some l.term }
      | some n => { l with term := n, remaining := fullTerm n }) →
    ∃ t, exec .leaseRenew s = .next t
      ∧ t.slot h.slot = { gen := h.gen, cond := .lease l' } ∧ OtherSlots s t h.slot
      ∧ Answered s t p r .ok
          ([statusByte s l.domain l.level] ++ bytes2 l'.term ++ bytes2 (l'.remaining.getD 0))
      ∧ t = { s with slots := t.slots, ports := t.ports, turn := t.turn, rest := t.rest, changes := [] }
      ∧ RestJudged s t)
  ∧ ∀ (s : State) (p : Client) (r : Request) (h : Handle) (level : Level) (l : Lease), Turn s p r .leaseAlter →
    alterArgs r.body = some (h, level) → Names s h l → l.owner = .client p →
    ∃ t, exec .leaseAlter s = .next t
      ∧ t.slot h.slot = { gen := h.gen, cond := .lease { l with level := level } } ∧ OtherSlots s t h.slot
      ∧ Answered s t p r .ok [statusByte s l.domain level] ∧ OnlyHanded s t
      ∧ t = { s with
          slots := t.slots, ctrls := t.ctrls, ports := t.ports, turn := t.turn, rest := t.rest, changes := [] }
      ∧ RestJudged s t

/-- An accepted LEASE.RELEASE or LEASE.REVOKE retires the lease: the generation goes up by one and the slot is FREE,
or RESERVED with its watch ARMED again; REVOKE tells a client owner; nothing else changes (R34, R35, R41, R42). -/
def Obligations.ReleaseAndRevokeRetire : Prop :=
  (∀ (s : State) (p : Client) (r : Request) (h : Handle) (l : Lease), Turn s p r .leaseRelease →
    handleArgs r.body = some h → Names s h l → l.owner = .client p →
    ∃ t, exec .leaseRelease s = .next t
      ∧ t.slot h.slot = leftBy h.gen l ∧ OtherSlots s t h.slot
      ∧ WatchesTornDown s t (fun i _ => decide (i = h.slot))
      ∧ Answered s t p r .ok [] ∧ OnlyHanded s t
      ∧ t = { s with
          slots := t.slots, watches := t.watches, ctrls := t.ctrls, ports := t.ports, turn := t.turn
          rest := t.rest, changes := [] }
      ∧ RestJudged s t)
  ∧ ∀ (s : State) (p : Client) (r : Request) (h : Handle) (l : Lease), Turn s p r .leaseRevoke →
    handleArgs r.body = some h → s.supervisor = p → Names s h l →
    ∃ t, exec .leaseRevoke s = .next t
      ∧ t.slot h.slot = leftBy h.gen l ∧ OtherSlots s t h.slot
      ∧ WatchesTornDown s t (fun i _ => decide (i = h.slot))
      ∧ (∀ c, t.queue c =
          if l.owner = .client c then (s.notify c .revoked (.lease h) (.level l.domain l.level)).queue c
          else s.queue c)
      ∧ t.adoption = (if t.hasBoot then s.adoption else none)
      ∧ Answered s t p r .ok [ownerCode l.owner] ∧ OnlyHanded s t
      ∧ t = { s with
          slots := t.slots, watches := t.watches, queues := t.queues, adoption := t.adoption, ctrls := t.ctrls
          ports := t.ports, turn := t.turn, rest := t.rest, changes := (match l.owner with | .client c => attnChange s t c | .boot => []) }
      ∧ RestJudged s t

/-- The reading requests LEASE.READ, WATCH.READ, LINES.READ, DOMAIN.READ, CLIENT.STATUS and PART.IDENT answer what
their rules give and change nothing but the port, the turn and Rest Control (R37, R91, R131, R143, R179). -/
def Obligations.ReadsAnswerAndChangeNothing : Prop :=
  ∀ (s : State) (p : Client) (r : Request) (body : List Byte), DemandLaw s → Turn s p r r.kind →
    ((∃ h l, r.kind = .leaseRead ∧ handleArgs r.body = some h ∧ Names s h l ∧ body = s.leaseImage h.slot l)
      ∨ (∃ w x, r.kind = .watchRead ∧ codeArgs 16 r.body = some w ∧ s.watch w = some x ∧ body = s.watchImage w x)
      ∨ (r.kind = .linesRead
          ∧ body = [s.wake.present.extractLsb' 0 8, s.wake.present.extractLsb' 8 8, s.wake.present.extractLsb' 16 8])
      ∨ (∃ d, r.kind = .domainRead ∧ codeArgs 8 r.body = some d ∧ body = s.domainImage d)
      ∨ (r.kind = .clientStatus
          ∧ body = [causeBits (s.client p).causes, byteOf (s.client p).quota, byteOf (s.charge p),
              byteOf s.supervisor.1, (presenceOf (s.ctrl (homeOf p))).code])
      ∨ (r.kind = .partIdent ∧ body = [0x2C, 0x7A, 0x32, 0x08, 1, 64, 16, 8, 4, 24, byteOf s.plan.1])) →
    ∃ t, exec (commandOf r.kind) s = .next t ∧ Answered s t p r .ok body
      ∧ t = { s with ports := t.ports, turn := t.turn, rest := t.rest, changes := [] }
      ∧ RestJudged s t

/-- LEASE.LIST answers at most eight items, each the handle and creation number of a lease the filter selects above
the cursor, in ascending creation number; a selected lease above the cursor that is not among them comes after all
eight, and the more mark says whether there is one (R39). The listing order, by which notices of one event or take are
sent too, holds the leases of the table in ascending creation number (R11). -/
def Obligations.ListGivesTheNextEight : Prop :=
  ∀ (s : State) (p : Client) (r : Request) (f : Filter) (cursor : Nat), CreationLaw s → DemandLaw s →
    Turn s p r .leaseList → listArgs r.body = some (f, cursor) →
    ∃ (t : State) (items : List (SlotNo × Lease)) (more : Bool), exec .leaseList s = .next t
      ∧ Answered s t p r .ok
          ([byteOf items.length, boolCode more]
            ++ items.flatMap (fun x : SlotNo × Lease => handleBytes (s.handleAt x.1) ++ bytes4 x.2.creation))
      ∧ t = { s with ports := t.ports, turn := t.turn, rest := t.rest, changes := [] }
      ∧ RestJudged s t
      ∧ items.length ≤ 8
      ∧ items.Pairwise (fun x y => x.2.creation < y.2.creation)
      ∧ (∀ x ∈ items, s.leaseAt x.1 = some x.2 ∧ f.selects x.2 = true ∧ cursor < x.2.creation)
      ∧ (∀ i l, s.leaseAt i = some l → f.selects l = true → cursor < l.creation → (i, l) ∉ items →
          items.length = 8 ∧ more = true ∧ ∀ x ∈ items, x.2.creation < l.creation)
      ∧ (more = true → ∃ i l, s.leaseAt i = some l ∧ f.selects l = true ∧ cursor < l.creation ∧ (i, l) ∉ items)
      ∧ s.leases.Pairwise (fun x y => x.2.creation < y.2.creation)
      ∧ ∀ i l, (i, l) ∈ s.leases ↔ s.leaseAt i = some l

/-- A taken request is refused with the status of its first check that fails, and its answer has no body; where every
check passes it is answered OK. A refused request changes nothing but its port, the turn and Rest Control, except that
OVERRUN clears its marker. A body fails its form check where it reads as none; which bodies those are,
Obligations.EncodedFieldsReadBack says (R23, R24; the checks: R26, R29, R32, R34, R37, R38, R41, R61, R64, R65, R167, R124, R129, R131, R91,
R92, R94, R117, R149, R150, R152, R158, R178). -/
def Obligations.RequestsRefuseInOrder : Prop :=
  ∀ (s : State) (p : Client) (r : Request), Turn s p r r.kind →
    (∀ status, refusal s p r = some status →
      ∃ t, exec (commandOf r.kind) s = .next t ∧ Answered s t p r status []
        ∧ (DemandLaw s → status ≠ .overrun →
            t = { s with ports := t.ports, turn := t.turn, rest := t.rest, changes := [] }
            ∧ RestJudged s t))
    ∧ (refusal s p r = none →
      ∃ (t : State) (a : Answer), exec (commandOf r.kind) s = .next t ∧ (t.port p).state = .ready a
        ∧ a.status = .ok)

/-! ## Handing leases over (chapters 4 and 11) -/

/-- An accepted LEASE.OFFER opens the offer and tells the target; an accepted LEASE.WITHDRAW removes it and tells
nobody (R62, R64). -/
def Obligations.OfferOpensAndWithdrawRemoves : Prop :=
  (∀ (s : State) (p : Client) (r : Request) (h : Handle) (target : Client) (window : Nat) (l : Lease),
    Turn s p r .leaseOffer → offerArgs r.body = some (h, target, window) → Names s h l → l.owner = .client p →
    target ≠ p → l.offer = none → l.binding = none → DemandLaw s →
    ∃ t, exec .leaseOffer s = .next t
      ∧ t.slot h.slot
          = { gen := h.gen, cond := .lease { l with offer := some { target := target, window := window } } }
      ∧ OtherSlots s t h.slot
      ∧ t.queue target
          = (s.notify target .offered (.lease h) (.offered p l.domain l.level window)).queue target
      ∧ (∀ c, c ≠ target → t.queue c = s.queue c)
      ∧ Answered s t p r .ok ([byteOf target.1] ++ bytes2 window)
      ∧ t = { s with
          slots := t.slots, queues := t.queues, ports := t.ports, turn := t.turn, rest := t.rest
          changes := attnChange s t target }
      ∧ RestJudged s t)
  ∧ ∀ (s : State) (p : Client) (r : Request) (h : Handle) (l : Lease) (o : Offer), Turn s p r .leaseWithdraw →
    handleArgs r.body = some h → Names s h l → l.owner = .client p → l.offer = some o → DemandLaw s →
    ∃ t, exec .leaseWithdraw s = .next t
      ∧ t.slot h.slot = { gen := h.gen, cond := .lease { l with offer := none } } ∧ OtherSlots s t h.slot
      ∧ Answered s t p r .ok (bytes2 o.window)
      ∧ t = { s with slots := t.slots, ports := t.ports, turn := t.turn, rest := t.rest, changes := [] }
      ∧ RestJudged s t

/-- An accepted LEASE.ACCEPT makes the requester the owner, reloads the remaining term and tells the old owner; an
accepted LEASE.ADOPT makes the requester the owner of a BOOT lease with the values given (R66, R167). -/
def Obligations.AcceptAndAdoptMoveOwnership : Prop :=
  (∀ (s : State) (p : Client) (r : Request) (h : Handle) (l : Lease) (old : Client), Turn s p r .leaseAccept →
    handleArgs r.body = some h → Names s h l → l.owner = .client old → l.offer.map Offer.target = some p →
    s.charge p < (s.client p).quota → DemandLaw s →
    ∃ t, exec .leaseAccept s = .next t
      ∧ t.slot h.slot
          = { gen := h.gen
              cond := .lease { l with owner := .client p, offer := none, remaining := fullTerm l.term } }
      ∧ OtherSlots s t h.slot
      ∧ t.queue old = (s.notify old .offerEnded (.lease h) (.ended p .accepted)).queue old
      ∧ (∀ c, c ≠ old → t.queue c = s.queue c)
      ∧ Answered s t p r .ok
          ([statusByte s l.domain l.level, byteOf l.domain.1, levelCode l.level] ++ bytes2 l.term ++ bytes2 l.term)
      ∧ t = { s with
          slots := t.slots, queues := t.queues, ports := t.ports, turn := t.turn, rest := t.rest
          changes := attnChange s t old }
      ∧ RestJudged s t)
  ∧ ∀ (s : State) (p : Client) (r : Request) (h : Handle) (a : AdoptTerms) (l : Lease), Turn s p r .leaseAdopt →
    adoptArgs r.body = some (h, a) → Names s h l → l.owner = .boot → s.charge p < (s.client p).quota →
    DemandLaw s →
    ∃ t, exec .leaseAdopt s = .next t
      ∧ t.slot h.slot
          = { gen := h.gen
              cond := .lease
                { l with
                  owner := .client p, term := a.term, remaining := fullTerm a.term, lapse := a.lapse
                  tag := a.tag, survives := a.survives } }
      ∧ OtherSlots s t h.slot
      ∧ t.adoption = (if t.hasBoot then s.adoption else none)
      ∧ Answered s t p r .ok
          ([statusByte s l.domain l.level, byteOf l.domain.1, levelCode l.level] ++ bytes2 a.term ++ bytes2 a.term)
      ∧ t = { s with
          slots := t.slots, adoption := t.adoption, ports := t.ports, turn := t.turn, rest := t.rest
          changes := [] }
      ∧ RestJudged s t

/-! ## Terms, windows and lapse (chapters 3, 4 and 11) -/

/-- The tick that brings a client's remaining term, an offer window or the adoption window to 0 raises its one claim and
sets its mark (R49, R60, R165). That each has a command of its own, which stands for that tick, is the model's choice
(notes/assumptions 26). -/
def Obligations.RunOutCountsRaiseTheirClaims : Prop :=
  (∀ (s : State) (i : SlotNo) (l : Lease) (c : Client), TickComes s → s.leaseAt i = some l →
    l.owner = .client c → l.remaining = some 1 → l.expiryMark = false →
    exec (.remainingReachesZero i) s = exec .tick s
    ∧ ∃ t, exec (.remainingReachesZero i) s = .next t
      ∧ t.slot i
          = { gen := (s.slot i).gen
              cond := .lease { loweredLease l with remaining := some 0, expiryMark := true } }
      ∧ s.handleAt i ∈ t.termClaims)
  ∧ (∀ (s : State) (i : SlotNo) (l : Lease) (o : Offer), TickComes s → s.leaseAt i = some l →
    l.offer = some o → o.window = 1 → l.windowMark = false →
    exec (.offerWindowRunsOut i) s = exec .tick s
    ∧ ∃ t, exec (.offerWindowRunsOut i) s = .next t
      ∧ t.slot i
          = { gen := (s.slot i).gen
              cond := .lease { loweredLease l with offer := some { o with window := 0 }, windowMark := true } }
      ∧ s.handleAt i ∈ t.windowClaims)
  ∧ ∀ (s : State) (i : SlotNo) (l : Lease), TickComes s → s.adoption = some 1 → s.adoptionMark = false →
    s.leaseAt i = some l → l.owner = .boot →
    exec .adoptionWindowRunsOut s = exec .tick s
    ∧ ∃ t, exec .adoptionWindowRunsOut s = .next t ∧ t.adoption = some 0 ∧ t.adoptionMark = true

/-- A lease-term expiry claim taken on a lease still timed and at remaining 0 with action RELEASE retires the lease
and appends LAPSED to its owner's queue; on any other it only discards the claim and clears its mark (R50, R51). -/
def Obligations.ExpiryLapsesOrIsDiscarded : Prop :=
  (∀ (s : State) (h : Handle) (l : Lease) (c : Client), s.running = true → h ∈ s.termClaims → Names s h l →
    l.owner = .client c → l.term ≠ 0 → l.remaining = some 0 → l.lapse = .release →
    ∃ t, exec (.leaseTermExpiry h) s = .next t
      ∧ t.slot h.slot = leftBy h.gen l ∧ OtherSlots s t h.slot
      ∧ WatchesTornDown s t (fun i _ => decide (i = h.slot))
      ∧ t.queue c = (s.notify c .lapsed (.lease h) (.level l.domain l.level)).queue c
      ∧ (∀ o, o ≠ c → t.queue o = s.queue o)
      ∧ t.termClaims = s.termClaims.erase h ∧ OnlyHanded s t
      ∧ t = { s with
          slots := t.slots, watches := t.watches, queues := t.queues, termClaims := t.termClaims
          ctrls := t.ctrls, rest := t.rest, changes := attnChange s t c }
      ∧ RestJudged s t)
  ∧ (∀ (s : State) (h : Handle) (l : Lease), s.running = true → h ∈ s.termClaims → Names s h l →
    (l.term = 0 ∨ l.remaining ≠ some 0) → DemandLaw s →
    ∃ t, exec (.leaseTermExpiry h) s = .next t
      ∧ t.slot h.slot = { gen := h.gen, cond := .lease { l with expiryMark := false } } ∧ OtherSlots s t h.slot
      ∧ t.termClaims = s.termClaims.erase h
      ∧ t = { s with slots := t.slots, termClaims := t.termClaims, rest := t.rest, changes := [] }
      ∧ RestJudged s t)
  ∧ ∀ (s : State) (h : Handle), s.running = true → h ∈ s.termClaims → s.named h = none → DemandLaw s →
    ∃ t, exec (.leaseTermExpiry h) s = .next t
      ∧ t = { s with termClaims := s.termClaims.erase h, rest := t.rest, changes := [] }
      ∧ RestJudged s t

/-- A lapse with action RESTART retires the lease without notice, whatever its survives-restart mark, and restarts
its owner with cause LAPSE_RESTART within the take (R52, R147). -/
def Obligations.RestartLapseRestartsTheOwner : Prop :=
  ∀ (s : State) (h : Handle) (l : Lease) (c : Client), LeaseLaw s → TableLaw s → s.running = true →
    h ∈ s.termClaims → Names s h l → l.owner = .client c → l.term ≠ 0 → l.remaining = some 0 →
    l.lapse = .restart →
    ∃ t, exec (.leaseTermExpiry h) s = .next t
      ∧ Restarted s t c (fun f => { f with lapseRestart := true })
          (fun i m => decide (i = h.slot ∨ (m.owner = .client c ∧ m.survives = false)))
      ∧ t.termClaims = s.termClaims.erase h ∧ OnlyHanded s t ∧ (∀ o, o ≠ c → t.port o = s.port o)
      ∧ t = { s with
          slots := t.slots, watches := t.watches, queues := t.queues, termClaims := t.termClaims
          clients := t.clients, ports := t.ports, ctrls := t.ctrls, rest := t.rest, changes := t.changes }
      ∧ RestJudged s t

/-- An offer-window expiry claim taken on an offer whose window stands at 0 ends the offer and tells the owner
EXPIRED; on any other lease it only discards the claim and clears its mark (R68). -/
def Obligations.OfferExpiryEndsTheOffer : Prop :=
  (∀ (s : State) (h : Handle) (l : Lease) (o : Offer) (c : Client), s.running = true → h ∈ s.windowClaims →
    Names s h l → l.owner = .client c → l.offer = some o → o.window = 0 → DemandLaw s →
    ∃ t, exec (.offerWindowExpiry h) s = .next t
      ∧ t.slot h.slot = { gen := h.gen, cond := .lease { l with offer := none, windowMark := false } }
      ∧ OtherSlots s t h.slot
      ∧ t.queue c = (s.notify c .offerEnded (.lease h) (.ended o.target .expired)).queue c
      ∧ (∀ d, d ≠ c → t.queue d = s.queue d)
      ∧ t = { s with
          slots := t.slots, queues := t.queues, windowClaims := s.windowClaims.erase h, rest := t.rest
          changes := attnChange s t c }
      ∧ RestJudged s t)
  ∧ ∀ (s : State) (h : Handle), s.running = true → h ∈ s.windowClaims → DemandLaw s →
    (∀ l o, s.named h = some l → l.offer = some o → o.window ≠ 0) →
    ∃ t, exec (.offerWindowExpiry h) s = .next t
      ∧ (∀ l, s.named h = some l →
          t.slot h.slot = { gen := h.gen, cond := .lease { l with windowMark := false } })
      ∧ (s.named h = none → t.slot h.slot = s.slot h.slot) ∧ OtherSlots s t h.slot
      ∧ t = { s with slots := t.slots, windowClaims := s.windowClaims.erase h, rest := t.rest, changes := [] }
      ∧ RestJudged s t

/-- The adoption-window expiry claim lapses every lease still owned by BOOT: each slot is FREE with the next
generation, the supervisor is told BOOT_LAPSED for each, in ascending creation number, and the count is removed; with no BOOT lease left the
claim is discarded (R166). -/
def Obligations.AdoptionExpiryLapsesBootLeases : Prop :=
  (∀ (s : State) (i : SlotNo) (l : Lease), LeaseLaw s → s.running = true → s.adoptionMark = true →
    s.adoption = some 0 → s.leaseAt i = some l → l.owner = .boot →
    ∃ t, exec .adoptionWindowExpiry s = .next t
      ∧ (∀ j, t.slot j =
          match (s.slot j).cond with
          | .free | .reserved _ => s.slot j
          | .lease m => if m.owner = .boot then { gen := (s.slot j).gen + 1, cond := .free } else s.slot j)
      ∧ t.queues
          = (appendAll s ((s.leases.filter (fun x => decide (x.2.owner = .boot))).map (fun x =>
              (s.supervisor, .bootLapsed, .domain x.2.domain, .boot (s.handleAt x.1) x.2.level)))).queues
      ∧ OnlyHanded s t
      ∧ t = { s with
          slots := t.slots, queues := t.queues, adoption := none, adoptionMark := false, ctrls := t.ctrls
          rest := t.rest, changes := attnChange s t s.supervisor }
      ∧ RestJudged s t)
  ∧ ∀ s : State, s.running = true → s.adoptionMark = true → DemandLaw s →
    (∀ i l, s.leaseAt i = some l → l.owner ≠ .boot) →
    ∃ t, exec .adoptionWindowExpiry s = .next t
      ∧ t = { s with adoptionMark := false, rest := t.rest, changes := [] } ∧ RestJudged s t

/-! ## Watches, lines and the tick (chapters 3 and 8) -/

/-- The senses: a watch's condition holds when a masked line of its bank meets its sense (R122). -/
def Obligations.SensesReadTheSamples : Prop :=
  ∀ (u : WakeUnit) (r : Watch),
    watchHolds u r = true ↔
      ∃ i, i < 8 ∧ r.mask.getLsbD i = true
        ∧ (match r.sense with
          | .low => u.present.getLsbD (8 * r.bank.1 + i) = false
          | .fall => u.previous.getLsbD (8 * r.bank.1 + i) = true ∧ u.present.getLsbD (8 * r.bank.1 + i) = false
          | .rise => u.previous.getLsbD (8 * r.bank.1 + i) = false ∧ u.present.getLsbD (8 * r.bank.1 + i) = true
          | .change => u.previous.getLsbD (8 * r.bank.1 + i) ≠ u.present.getLsbD (8 * r.bank.1 + i)
              ∨ u.latches.getLsbD (8 * r.bank.1 + i) = true)

/-- An accepted WATCH.SET takes the lowest free id and reserves the lowest FREE slot; the watch is ARMED, and a LOW
watch whose line is low has its claim raised at once (R124, R125). -/
def Obligations.WatchSetReservesItsSlot : Prop :=
  ∀ (s : State) (p : Client) (r : Request) (a : WatchArgs) (w : WatchId) (i : SlotNo), Turn s p r .watchSet →
    watchSetArgs r.body = some a → s.watch w = none → (∀ v, v < w → s.watch v ≠ none) →
    s.charge p < (s.client p).quota → LowestFree s i → DemandLaw s →
    ∃ t, exec .watchSet s = .next t
      ∧ t.slot i = { gen := (s.slot i).gen, cond := .reserved w } ∧ OtherSlots s t i
      ∧ t.watch w
          = some { owner := p, bank := a.bank, mask := a.mask, sense := a.sense, template := a.template
                   state := .armed, slot := i, mark := firesAtOnce s.wake a.sense a.bank a.mask, stale := 0 }
      ∧ (∀ v, v ≠ w → t.watch v = s.watch v)
      ∧ Answered s t p r .ok [byteOf w.1, byteOf i.1]
      ∧ t = { s with
          slots := t.slots, watches := t.watches, ports := t.ports, turn := t.turn, rest := t.rest
          changes := [] }
      ∧ RestJudged s t

/-- An accepted WATCH.DROP of an ARMED watch removes it, its claim with it, and frees its slot with the generation
kept; of a SPENT watch it removes the watch and unbinds the lease (R129, R130). -/
def Obligations.WatchDropRemovesTheWatch : Prop :=
  ∀ (s : State) (p : Client) (r : Request) (w : WatchId) (x : Watch), TableLaw s → DemandLaw s →
    Turn s p r .watchDrop → codeArgs 16 r.body = some w → s.watch w = some x → x.owner = p →
    ∃ t, exec .watchDrop s = .next t
      ∧ t.watch w = none ∧ (∀ v, v ≠ w → t.watch v = s.watch v) ∧ OtherSlots s t x.slot
      ∧ (x.state = .armed → t.slot x.slot = { gen := (s.slot x.slot).gen, cond := .free }
          ∧ Answered s t p r .ok [0, byteOf x.slot.1, 0, 0])
      ∧ (x.state = .spent → ∃ l, s.leaseAt x.slot = some l
          ∧ t.slot x.slot = { gen := (s.slot x.slot).gen, cond := .lease { l with binding := none } }
          ∧ Answered s t p r .ok ([1, byteOf x.slot.1] ++ handleBytes (s.handleAt x.slot)))
      ∧ t = { s with
          slots := t.slots, watches := t.watches, ports := t.ports, turn := t.turn, rest := t.rest
          changes := [] }
      ∧ RestJudged s t

/-- A firing taken for an ARMED watch creates the template's lease in the watch's slot, bound to it and owned by its
owner, makes the watch SPENT and appends WATCH_FIRED (R127). -/
def Obligations.FiringCreatesTheBoundLease : Prop :=
  ∀ (s : State) (w : WatchId) (x : Watch), s.running = true → s.watch w = some x → x.state = .armed →
    x.mark = true →
    ∃ t, exec (.firing w) s = .next t
      ∧ t.slot x.slot
          = { gen := (s.slot x.slot).gen
              cond := .lease
                { creation := s.makeRoom.counter + 1, owner := .client x.owner, domain := x.template.domain
                  level := x.template.level, term := x.template.term, remaining := fullTerm x.template.term
                  lapse := x.template.lapse, tag := x.template.tag, survives := x.template.survives
                  binding := some w, offer := none, expiryMark := false, windowMark := false } }
      ∧ OtherSlots s.makeRoom t x.slot ∧ t.counter = s.makeRoom.counter + 1
      ∧ t.watch w = some { x with state := .spent, mark := false } ∧ (∀ v, v ≠ w → t.watch v = s.watch v)
      ∧ t.queue x.owner
          = (s.notify x.owner .watchFired (.watch w) (.handle (s.handleAt x.slot))).queue x.owner
      ∧ (∀ c, c ≠ x.owner → t.queue c = s.queue c)
      ∧ OnlyHanded s t
      ∧ t = { s with
          slots := t.slots, counter := t.counter, watches := t.watches, queues := t.queues, ctrls := t.ctrls
          rest := t.rest, changes := attnChange s t x.owner }
      ∧ RestJudged s t

/-- One tick, in the 32nd TREF period of a count, lowers every remaining term, offer window, adoption count, controller
timer and restart pulse that stands above 0, and the rest delay in RESTING-PENDING, by one, and the divider starts again.
What it ends comes within it: a term or a window raises its claim; a controller makes its timed step; a pulse releases
CRST_N where the home domain is warm and no event that waits there makes it cold; the rest delay, with the rest conditions
holding, takes the part to QUIET (R45, R47, R49, R60, R77, R109, R133, R140, R141, R165). Whether the tick comes before or
after the sample of its period is open, and no tick comes elsewhere: the model's choices (notes/assumptions 2 and 6), as
are the ascending orders (notes/assumptions 27) and which events tie with the tick (notes/assumptions 32). -/
def Obligations.TickLowersEveryCount : Prop :=
  (∀ s : State, TickComes s → DomainLaws s →
    ∃ t u, exec .tick s = .next t ∧ Lowered s u ∧ TickFinished (List.finRange 8) s u t)
  ∧ ∀ s : State, ¬ TickComes s → exec .tick s = .next s

/-- A sample moves the present sample into the previous one and the levels into the present one, raises the claim of
each ARMED watch without one whose condition holds, and clears the latches after that (R120, R121, R126). For a watch ARMED
again after its lease was retired, a change before that does not count save through its latch (R128); that a line which
changes once more is judged by its samples is the model's reading (notes/assumptions 28). The divider counts the TREF
period, and the 32nd owes a tick, which the next period's sample waits for (R45); that the sample and the tick of one period
come in either order is the model's choice (notes/assumptions 6). -/
def Obligations.SampleJudgesTheWatches : Prop :=
  (∀ s : State, s.running = true → s.rest.due ≠ .tick →
    ∃ t, exec .lineSample s = .next t
      ∧ t.wake = { lines := s.wake.lines, present := s.wake.lines, previous := s.wake.present, latches := 0 }
      ∧ (∀ w, t.watch w = (s.watch w).map (fun x =>
          { x with
            mark := x.mark || fires { s.wake with present := s.wake.lines, previous := s.wake.present } x
            stale := 0 }))
      ∧ t.rest
          = judgedRest
              (if s.rest.due = .sample then { s.rest with due := .none }
                else if s.rest.divider < 31 then { s.rest with divider := s.rest.divider + 1 }
                else { s.rest with divider := 0, due := .tick })
              t
      ∧ t = { s with wake := t.wake, watches := t.watches, rest := t.rest, changes := [] })
  ∧ ∀ s : State, (s.running = false ∨ s.rest.due = .tick) → exec .lineSample s = .next s

/-- A change of level of a wake line moves the line and sets its latch, and nothing else but Rest Control and the model's
own record of the lines that are stale for a watch, which this one is no longer (R128; notes/assumptions 28). In QUIET it
starts WAKING exactly when a masked line of an ARMED LOW watch is low, a masked latch of an ARMED CHANGE watch is set, or a
port holds a request (R121, R134). -/
def Obligations.LineChangeSetsTheLatch : Prop :=
  ∀ (s : State) (l : Line) (high : Bool), s.resetLow = false → s.wake.lines.getLsbD l.1 ≠ high →
    ∃ t, exec (.wakeLineChange l high) s = .next t
      ∧ (∀ j : Line, t.wake.lines.getLsbD j.1 = (if j = l then high else s.wake.lines.getLsbD j.1))
      ∧ (∀ j : Line, t.wake.latches.getLsbD j.1 = (decide (j = l) || s.wake.latches.getLsbD j.1))
      ∧ t.wake.present = s.wake.present ∧ t.wake.previous = s.wake.previous
      ∧ (t.wakeCondition = true ↔
          (∃ c r, (s.port c).state = .held r)
          ∨ ∃ w x, s.watch w = some x ∧ x.state = .armed
              ∧ ∃ i, i < 8 ∧ x.mask.getLsbD i = true
                ∧ ((x.sense = .low ∧ t.wake.lines.getLsbD (8 * x.bank.1 + i) = false)
                  ∨ (x.sense = .change ∧ t.wake.latches.getLsbD (8 * x.bank.1 + i) = true)))
      ∧ (∀ w, t.watch w = (s.watch w).map (fun x => { x with stale := x.stale &&& ~~~ bankOf x.bank (1#24 <<< l.1) }))
      ∧ RestJudged s t
      ∧ t = { s with wake := t.wake, watches := t.watches, rest := t.rest, changes := [] }

/-! ## Domain controllers (chapters 5 to 7) -/

/-- The derived values: effective level (R75), lease status (R15), presence (R139), whether a domain is counted toward its
parent and the derived demand that follows from the children as they were counted last (R97; that the count is kept is the
model's, notes/assumptions 8), the lease demand and the lease count of a domain (R17), and a client's charge: the leases it
owns and the slots RESERVED for its own ARMED watches (R12). -/
def Obligations.DerivedValuesFollowTheTables : Prop :=
  (∀ st : DomState,
    effLevel st
      = match st with
        | .off | .powering | .discharge | .fault => none
        | .held | .starting _ => some .hold
        | .slow => some .slow
        | .full => some .full
        | .linger l => some l)
  ∧ (∀ (st : DomState) (l : Level),
    (leaseStatus st l = .faulted ↔ st = .fault)
    ∧ (leaseStatus st l = .granted ↔ st ≠ .fault ∧ reachRank (some l) ≤ reachRank (effLevel st))
    ∧ (leaseStatus st l = .pending ↔ st ≠ .fault ∧ reachRank (effLevel st) < reachRank (some l)))
  ∧ (∀ r : Ctrl,
    (presenceOf r = .absent ↔ r.cold = true)
    ∧ (presenceOf r = .present ↔ r.cold = false ∧ (effLevel r.state = some .slow ∨ effLevel r.state = some .full))
    ∧ (presenceOf r = .dormant ↔ r.cold = false ∧ effLevel r.state ≠ some .slow ∧ effLevel r.state ≠ some .full))
  ∧ (∀ r : Ctrl,
    r.counted = true ↔
      r.state ≠ .fault
      ∧ ((∃ run, r.state = .starting run) ∨ r.state = .slow ∨ r.state = .full ∨ r.state = .linger .slow
        ∨ r.state = .linger .full ∨ 2 ≤ reachRank r.leaseDemand ∨ 2 ≤ reachRank r.derivedDemand))
  ∧ (∀ (s : State) (p : Dom),
    (∀ c, (s.ctrl c).setup.parent = some p → (s.ctrl c).counts = true →
      reachRank (some (s.ctrl c).setup.need) ≤ reachRank (s.derivedFrom p))
    ∧ ∀ l, s.derivedFrom p = some l →
      ∃ c, (s.ctrl c).setup.parent = some p ∧ (s.ctrl c).counts = true ∧ (s.ctrl c).setup.need = l)
  ∧ (∀ (s : State) (d : Dom),
    (∀ i m, s.leaseAt i = some m → m.domain = d → reachRank (some m.level) ≤ reachRank (s.tableDemand d))
    ∧ (∀ l, s.tableDemand d = some l → ∃ i m, s.leaseAt i = some m ∧ m.domain = d ∧ m.level = l)
    ∧ Counts (s.leaseCount d) (fun i => ∃ m, s.leaseAt i = some m ∧ m.domain = d))
  ∧ ∀ (s : State) (c : Client), TableLaw s →
    Counts (s.charge c) (fun i =>
      (∃ m, s.leaseAt i = some m ∧ m.owner = .client c)
      ∨ ∃ w x, (s.slot i).cond = .reserved w ∧ s.watch w = some x ∧ x.owner = c ∧ x.state = .armed ∧ x.slot = i)

/-- A demand change takes a controller where the table of chapter 5 says, for the demand as it stands, with the timer,
cold flag and outputs of the state it ends in, the outputs changed in their order through every passage of the event, those
of a linger of 0, a settle time of 0 and an abandoned start among them; a recheck that fails within it is a fault (R76 to
R86, R88, R111, R116). That
the change acts on the demand as it stands, however many waited, and that one which waits in QUIET waits for AWAKE, is the
model's reading (notes/assumptions 7 and 15). That the start of a child and the cancel of its parent's linger are two
commands is the model's choice (R100; notes/assumptions 33). -/
def Obligations.DemandChangeMovesTheController : Prop :=
  ∀ (s : State) (d : Dom) (r : Ctrl), s.running = true → OutputLaw s → ResetLineLaw s → ForestLaw s → TreeLaw s →
    DerivedLaw s → s.ctrl d = r → r.demandPending = true →
    ∃ t, exec (.demandChange d) s = .next t
      ∧ (if (demandPlace r (s.permits d)).1 = .fault ∧ r.state ≠ .fault then
          Faulted s.begin t d { r with demandPending := false } .recheck
        else Moved s.begin t d (placed { r with demandPending := false } (demandPlace r (s.permits d))) 0)
      ∧ RestJudged s t

/-- A parent change makes a child in HELD compare its demand, so that a demand of SLOW or above starts it where the
parent now permits, its outputs changed in their order; a child in any other state takes no step (R80, R88, R99). That a change handed on waits as one mark is the
model's reading (notes/assumptions 9), and that the cancel of the parent's linger is another command is its choice (R100;
notes/assumptions 33). -/
def Obligations.ParentChangeStartsTheWaitingChild : Prop :=
  ∀ (s : State) (d : Dom) (r : Ctrl) (place : DomState × Nat), s.resetLow = false → OutputLaw s → ResetLineLaw s →
    ForestLaw s → TreeLaw s → DerivedLaw s → s.ctrl d = r → r.parentPending = true →
    place = (if r.state = .held then heldPlace r (s.permits d) else (r.state, r.timer)) →
    ∃ t, exec (.parentChange d) s = .next t
      ∧ (if place.1 = .fault ∧ r.state ≠ .fault then Faulted s.begin t d { r with parentPending := false } .recheck
        else Moved s.begin t d (placed { r with parentPending := false } place) 0)
      ∧ RestJudged s t

/-- A PGOOD that becomes present ends POWERING in HELD, where the demand is compared at once, the outputs changed in
their order; the GRANTED notices of HELD come before DCLK starts. In every other state only the input moves (R76, R79,
R80, R88, R90, R108). -/
def Obligations.PowerGoodEndsTheRamp : Prop :=
  ∀ (s : State) (d : Dom) (r : Ctrl) (place : DomState × Nat), s.resetLow = false → OutputLaw s → ResetLineLaw s →
    ForestLaw s → DerivedLaw s → s.ctrl d = r → r.pgood = false → r.lossPending = false →
    place = (if r.state = .powering then heldPlace { r with pgood := true } (s.permits d) else (r.state, r.timer)) →
    ∃ t, exec (.pgoodPresent d) s = .next t ∧ Moved s.begin t d (placed { r with pgood := true } place) 0 ∧ RestJudged s t

/-- A loss of PGOOD faults the states R108 marks, and in the others moves the input alone; the tick that ends the ramp with
PGOOD absent faults within itself, and RAMP_END d is that tick with the fault of `d` made first, by the name of what it ends,
which is the model's choice (notes/assumptions 26 and 27). The outputs of a faulted domain are dropped first, in their order (R88, R108 to R110, R113). A loss
that another event at the controller comes ahead of waits for that event, and the state which the event reaches judges it
(R112); that the fall and its judgement are then two commands is the model's choice (notes/assumptions 29). -/
def Obligations.SupplyFailureFaultsTheDomain : Prop :=
  ∀ (s : State) (d : Dom) (r : Ctrl), s.resetLow = false → OutputLaw s → ResetLineLaw s → ForestLaw s → TreeLaw s →
    DerivedLaw s → s.ctrl d = r →
    (r.pgood = true ∨ r.lossPending = true →
      ∃ t, exec (.pgoodLoss { domain := d, ahead := false }) s = .next t
        ∧ (if r.state = .starting .slow ∨ r.state = .starting .full ∨ r.state = .slow ∨ r.state = .full
              ∨ r.state = .linger .slow ∨ r.state = .linger .full
              ∨ (r.setup.monitor = true ∧ (r.state = .held ∨ r.state = .linger .hold)) then
            Faulted s.begin t d { r with pgood := false, lossPending := false } .loss ∧ dropChanges d r.pins <+: t.changes
          else Moved s.begin t d { r with pgood := false, lossPending := false } 0)
        ∧ RestJudged s t)
    ∧ (r.pgood = true →
      ∃ t, exec (.pgoodLoss { domain := d, ahead := true }) s = .next t
        ∧ (∀ e, t.ctrl e = if e = d then { r with pgood := false, lossPending := true } else s.ctrl e)
        ∧ t = { s with ctrls := t.ctrls, rest := t.rest, changes := [] } ∧ RestJudged s t)
    ∧ (TickComes s → r.state = .powering → r.timer = 1 → r.pgood = false →
      ∃ t u w, exec (.rampEnd d) s = .next t ∧ Lowered s u ∧ Faulted u w d { r with timer := 0 } .ramp
        ∧ TickFinished ((List.finRange 8).erase d) s w t ∧ dropChanges d r.pins <+: t.changes)

/-- The settle end completes the start: DRST_N released before ISO_N, warm, and the running level entered; with
monitor-in-hold off and PGOOD absent it is a RECHECK fault instead (R82, R88, R111). It comes within the tick that brings the
timer to 0 (R77): SETTLE_END is that tick with the step of `d` made first, by the name of what it ends, which is the model's
choice (notes/assumptions 26 and 27). -/
def Obligations.SettleEndCompletesOrFaults : Prop :=
  ∀ (s : State) (d : Dom) (r : Ctrl) (run : Run), DomainLaws s → TickComes s → s.ctrl d = r →
    r.state = .starting run → r.timer = 1 →
    ∃ t u w, exec (.settleEnd d) s = .next t ∧ Lowered s u
      ∧ (if r.setup.monitor = false ∧ r.pgood = false then
          Faulted u w d { r with timer := 0 } .recheck ∧ dropChanges d r.pins <+: t.changes
        else
          Moved u w d (placed r (run.state, 0)) 0
          ∧ (if r.cold then [.drst d false, .iso d false] else [.iso d false]) <+: t.changes)
      ∧ TickFinished ((List.finRange 8).erase d) s w t

/-- The linger end takes the domain to its demand as it stands; isolation is asserted before the clock stops, and
DRST_N before PEN is removed. A demand that has risen to the held level meanwhile is followed upward, which is the
model's reading (R85, R88; notes/assumptions 10). It comes within the tick that brings the timer to 0 (R77): LINGER_END is
that tick with the step of `d` made first, by the name of what it ends, which is the model's choice (notes/assumptions 26
and 27). -/
def Obligations.LingerEndDescendsToDemand : Prop :=
  ∀ (s : State) (d : Dom) (r : Ctrl) (l : Level), DomainLaws s → TickComes s → s.ctrl d = r → r.state = .linger l →
    r.timer = 1 →
    ∃ t u w, exec (.lingerEnd d) s = .next t ∧ Lowered s u
      ∧ (if (lingerPlace r (s.permits d) l).1 = .fault then Faulted u w d { r with timer := 0 } .recheck
        else Moved u w d (placed r (lingerPlace r (s.permits d) l)) 0)
      ∧ (l ≠ .hold → reachRank r.demand < 2 → [.iso d true, .dclk d .stopped] <+: t.changes)
      ∧ (l = .hold → r.demand = none →
          (if r.cold then [.pen d false] else [.drst d true, .pen d false]) <+: t.changes)
      ∧ TickFinished ((List.finRange 8).erase d) s w t

/-- The discharge end enters OFF, raises the home-lost event of a home domain, and goes on where a demand waits: to
POWERING, and with PGOOD already present to HELD and beyond (R78, R79, R86, R89). It comes within the tick that brings the
timer to 0 (R77): DISCHARGE_END is that tick with the step of `d` made first, by the name of what it ends, which is the
model's choice (notes/assumptions 26 and 27). -/
def Obligations.DischargeEndEntersOff : Prop :=
  ∀ (s : State) (d : Dom) (r : Ctrl), DomainLaws s → TickComes s → s.ctrl d = r → r.state = .discharge →
    r.timer = 1 →
    ∃ t u w, exec (.dischargeEnd d) s = .next t ∧ Lowered s u
      ∧ Moved u w d (placed r (if r.demand = none then (.off, 0) else powerPlace r (s.permits d))) 1
      ∧ TickFinished ((List.finRange 8).erase d) s w t

/-- An accepted DOMAIN.SETUP replaces the seven setup fields and, where no demand change waits at the domain, no demand
anywhere; an accepted DOMAIN.DIVIDE sets the exponent and moves a divided DCLK at once (R93, R94). Where a demand change
waits at a domain that is counted already, the old parent loses that count at once: the model's reading of a point the spec
rules out (notes/assumptions 18). -/
def Obligations.SetupAndDivideWriteTheController : Prop :=
  (∀ (s : State) (p : Client) (r : Request) (d : Dom) (x : Setup), Turn s p r .domainSetup →
    setupArgs r.body = some (d, x) → s.supervisor = p → (s.ctrl d).state = .off → s.leaseCount d = 0 →
    s.closesCycle d x.parent = false → DemandLaw s →
    ∃ t, exec .domainSetup s = .next t
      ∧ (SettledLaw s → DerivedLaw s → (s.ctrl d).demandPending = false →
          t.ctrl d = { s.ctrl d with setup := x } ∧ ∀ e, e ≠ d → t.ctrl e = s.ctrl e)
      ∧ (∀ e, t.ctrl e
          = (let y : Ctrl := if e = d then { s.ctrl d with setup := x, counts := false } else s.ctrl e
             if (s.ctrl d).counts = true ∧ (s.ctrl d).setup.parent = some e then
               { y with
                 derivedDemand := t.derivedFrom e
                 demandPending := y.demandPending
                   || decide (reachMax y.leaseDemand (t.derivedFrom e) ≠ reachMax y.leaseDemand y.derivedDemand) }
             else y))
      ∧ Answered s t p r .ok (setupBytes x)
      ∧ t = { s with ctrls := t.ctrls, ports := t.ports, turn := t.turn, rest := t.rest, changes := [] }
      ∧ RestJudged s t)
  ∧ ∀ (s : State) (p : Client) (r : Request) (d : Dom) (k : Nat), Turn s p r .domainDivide →
    divideArgs r.body = some (d, k) → s.supervisor = p → OutputLaw s → DemandLaw s →
    ∃ t, exec .domainDivide s = .next t
      ∧ t.ctrl d
          = { s.ctrl d with divisor := k, pins := rowPins { s.ctrl d with divisor := k } }
      ∧ t.changes = orderedChanges d (s.ctrl d).pins (t.ctrl d).pins
      ∧ (∀ e, e ≠ d → t.ctrl e = s.ctrl e)
      ∧ Answered s t p r .ok [byteOf k]
      ∧ t = { s with ctrls := t.ctrls, ports := t.ports, turn := t.turn, rest := t.rest, changes := t.changes }
      ∧ RestJudged s t

/-- An accepted DOMAIN.CLEAR sends a faulted domain to DISCHARGE with its cause and its leases kept, and the domain is
counted toward its parent again for a demand of SLOW or above; no output moves (R87, R97, R98, R117). -/
def Obligations.ClearSendsFaultToDischarge : Prop :=
  ∀ (s : State) (p : Client) (r : Request) (d : Dom), Turn s p r .domainClear → codeArgs 8 r.body = some d →
    s.supervisor = p → (s.ctrl d).state = .fault → OutputLaw s → ResetLineLaw s → DemandLaw s → ForestLaw s →
    DerivedLaw s →
    ∃ t, exec .domainClear s = .next t
      ∧ (∀ e, t.ctrl e
          = handed s t e
              (if e = d then
                { s.ctrl d with
                  state := .discharge, timer := (s.ctrl d).setup.discharge
                  counts := decide (2 ≤ reachRank (s.ctrl d).demand) }
              else s.ctrl e))
      ∧ Answered s t p r .ok [7, causeCode (s.ctrl d).cause]
      ∧ t = { s with ctrls := t.ctrls, ports := t.ports, turn := t.turn, rest := t.rest, changes := [] }
      ∧ RestJudged s t

/-! ## Clients and notices (chapters 9 and 10) -/

/-- CLIENT.CLEARCAUSE clears the marked flags of the requester, CLIENT.QUOTA sets the target's quota, SUPER.PASS moves
the role; nothing else changes (R144, R150, R152). -/
def Obligations.ClientRequestsWriteTheRecord : Prop :=
  (∀ (s : State) (p : Client) (r : Request) (b : Byte) (f : CauseFlags), Turn s p r .clientClearCause → DemandLaw s →
    b = r.body.headD 0 →
    f = { partStart := (s.client p).causes.partStart && !b.getLsbD 0
          homeLost := (s.client p).causes.homeLost && !b.getLsbD 1
          lapseRestart := (s.client p).causes.lapseRestart && !b.getLsbD 2
          orderedRestart := (s.client p).causes.orderedRestart && !b.getLsbD 3 } →
    ∃ t, exec .clientClearCause s = .next t
      ∧ t.client p = { s.client p with causes := f } ∧ (∀ c, c ≠ p → t.client c = s.client c)
      ∧ Answered s t p r .ok [causeBits f]
      ∧ t = { s with clients := t.clients, ports := t.ports, turn := t.turn, rest := t.rest, changes := [] }
      ∧ RestJudged s t)
  ∧ (∀ (s : State) (p : Client) (r : Request) (c : Client) (q : Nat), Turn s p r .clientQuota →
    quotaArgs r.body = some (c, q) → s.supervisor = p → s.charge c ≤ q → DemandLaw s →
    ∃ t, exec .clientQuota s = .next t
      ∧ t.client c = { s.client c with quota := q } ∧ (∀ o, o ≠ c → t.client o = s.client o)
      ∧ Answered s t p r .ok [byteOf q, byteOf (s.charge c)]
      ∧ t = { s with clients := t.clients, ports := t.ports, turn := t.turn, rest := t.rest, changes := [] }
      ∧ RestJudged s t)
  ∧ ∀ (s : State) (p : Client) (r : Request) (c : Client), Turn s p r .superPass →
    codeArgs 4 r.body = some c → s.supervisor = p → c ≠ p → DemandLaw s →
    ∃ t, exec .superPass s = .next t ∧ t.supervisor = c
      ∧ Answered s t p r .ok [byteOf c.1]
      ∧ t = { s with supervisor := c, ports := t.ports, turn := t.turn, rest := t.rest, changes := [] }
      ∧ RestJudged s t

/-- An accepted CLIENT.RESTART restarts the target with cause ORDERED_RESTART and answers how many leases it retired
(R147, R149). -/
def Obligations.OrderedRestartTearsTheClientDown : Prop :=
  ∀ (s : State) (p : Client) (r : Request) (c : Client), LeaseLaw s → TableLaw s → Turn s p r .clientRestart →
    codeArgs 4 r.body = some c → s.supervisor = p → c ≠ p →
    ∃ t, exec .clientRestart s = .next t
      ∧ Restarted s t c (fun f => { f with orderedRestart := true })
          (fun _ m => decide (m.owner = .client c ∧ m.survives = false))
      ∧ OnlyHanded s t
      ∧ t.port p
          = (let a := answerOf s t p r .ok
              [byteOf (s.leasesBySlot.countP (fun x => decide (x.2.owner = .client c ∧ x.2.survives = false)))]
             { state := .ready a, saved := some a, memory := some r.seq, priorDiscarded := false
               busyDrop := false, torn := false })
      ∧ (∀ o, o ≠ p → o ≠ c → t.port o = s.port o) ∧ t.turn = p + 1
      ∧ t = { s with
          slots := t.slots, watches := t.watches, queues := t.queues, clients := t.clients, ports := t.ports
          ctrls := t.ctrls, turn := t.turn, rest := t.rest, changes := t.changes }
      ∧ RestJudged s t

/-- A home-lost teardown sets HOME_LOST, clears the port and the queue, ends the offers made to the client, and keeps
its leases, watches, quota, role and pulse (R145). That there is one for each event raised is the model's choice
(notes/assumptions 16), and that one still waiting in QUIET or WAKING is carried out in AWAKE is its reading of R136
(notes/assumptions 15). -/
def Obligations.HomeLostTeardownClearsPortAndQueue : Prop :=
  (∀ (s : State) (c : Client), LeaseLaw s → s.running = true → 0 < (s.client c).homeLostPending →
    ∃ t, exec (.homeLostTeardown c) s = .next t
      ∧ t.client c
          = { s.client c with
              causes := { (s.client c).causes with homeLost := true }
              homeLostPending := (s.client c).homeLostPending - 1 }
      ∧ (∀ o, o ≠ c → t.client o = s.client o)
      ∧ t.port c = Port.initial ∧ (∀ o, o ≠ c → t.port o = s.port o)
      ∧ t.queue c = Queue.initial
      ∧ SlotsTornDown s t c (fun _ _ => false) ∧ OfferersTold s t c (fun _ _ => false)
      ∧ t = { s with
          slots := t.slots, queues := t.queues, clients := t.clients, ports := t.ports, rest := t.rest
          changes := attnChange s t c ++ (appendAll s.begin (goneNotes s c (fun _ _ => false))).changes }
      ∧ RestJudged s t)
  ∧ ∀ (s : State) (c : Client), s.running = false → exec (.homeLostTeardown c) s = .next s

/-- The end of a restart pulse is the tick that brings it to 0, by the name of what it ends, and after it CRST_N is asserted
exactly if the home domain is cold or an event that waits there makes it cold, which in the tie of R141 leaves CRST_N
asserted with the tick first (R140, R141). That both commands stand for that one tick is the model's choice (notes/assumptions
26), and that the tie is with the events that wait at the home is its reading (notes/assumptions 32). -/
def Obligations.PulseEndReleasesAWarmClient : Prop :=
  ∀ (s : State) (c : Client), DomainLaws s → TickComes s → (s.client c).pulse = 1 →
    exec (.restartPulseEnd c) s = exec .tick s
    ∧ ∃ t, exec (.restartPulseEnd c) s = .next t
      ∧ t.client c
          = { s.client c with
              pulse := 0, tied := wouldCool t (homeOf c)
              crst := (t.ctrl (homeOf c)).cold || wouldCool t (homeOf c)
              homeLostPending := (t.client c).homeLostPending }

/-- A notice merges into the entry of its kind and subject, or is appended at the tail, or in a full queue is dropped
with the overrun marker set; ATTN_N follows, and no other queue is touched (R155, R160). -/
def Obligations.NoticesMergeAppendOrDrop : Prop :=
  ∀ (s : State) (c : Client) (k : NoticeKind) (sub : Subject) (det : Detail), QueueLaw s →
    (∀ o, o ≠ c → (s.notify c k sub det).queue o = s.queue o)
    ∧ (∀ before e after, (s.queue c).entries = before ++ e :: after → e.kind = k → e.subject = sub →
        (s.notify c k sub det).queue c
          = { s.queue c with
              entries := before ++ { e with detail := det, count := min (e.count + 1) 255 } :: after })
    ∧ ((∀ e ∈ (s.queue c).entries, ¬ (e.kind = k ∧ e.subject = sub)) →
        (s.notify c k sub det).queue c
          = if (s.queue c).entries.length < 16 then
              { entries := (s.queue c).entries ++ [{ kind := k, subject := sub, detail := det, count := 1 }]
                overrun := (s.queue c).overrun, attn := true }
            else { s.queue c with overrun := true })

/-- NOTICE.FETCH removes and answers the head entry, or answers OVERRUN and clears the marker, or answers EMPTY
(R158). -/
def Obligations.FetchRemovesTheHead : Prop :=
  ∀ (s : State) (p : Client) (r : Request), Turn s p r .noticeFetch → DemandLaw s → QueueLaw s →
    ∃ t, exec .noticeFetch s = .next t
      ∧ (∀ e es, (s.queue p).entries = e :: es →
          t.queue p = { entries := es, overrun := (s.queue p).overrun, attn := !es.isEmpty || (s.queue p).overrun }
          ∧ Answered s t p r .ok (noticeImage e ++ [byteOf es.length, boolCode (s.queue p).overrun]))
      ∧ ((s.queue p).entries = [] → (s.queue p).overrun = true →
          t.queue p = Queue.initial ∧ Answered s t p r .overrun [])
      ∧ ((s.queue p).entries = [] → (s.queue p).overrun = false →
          t.queue p = s.queue p ∧ Answered s t p r .empty [])
      ∧ (∀ c, c ≠ p → t.queue c = s.queue c)
      ∧ t = { s with
          queues := t.queues, ports := t.ports, turn := t.turn, rest := t.rest, changes := attnChange s t p }
      ∧ RestJudged s t

/-! ## Rest, reset and part start (chapters 8 and 11) -/

/-- The three rest conditions: no lease, every domain in OFF, and no claim waiting. The tick that brings the rest delay to
0 with them takes the part to QUIET, or on to WAKING where something wakes it; the end of WAKING takes it to AWAKE with
the divider at 0 and a first sample, and from there to RESTING-PENDING with its delay of 16 where the conditions hold (R132
to R135). That REST_DELAY_END is that tick by another name is the model's choice (notes/assumptions 26), and so is that
the 64 periods of WAKING are not counted (notes/assumptions 6). -/
def Obligations.RestBeginsAndEnds : Prop :=
  (∀ s : State, s.restConditions = true ↔
    (∀ i, s.leaseAt i = none) ∧ (∀ d, (s.ctrl d).state = .off) ∧ (∀ c r, (s.port c).state ≠ .held r)
    ∧ s.termClaims = [] ∧ s.windowClaims = [] ∧ s.adoptionMark = false
    ∧ ∀ w x, s.watch w = some x → x.mark = false)
  ∧ (∀ s : State, s.resetLow = false → s.rest.part = .restingPending → s.rest.timer = 1 →
    (s.rest.due = .tick ∨ (s.rest.due = .none ∧ s.rest.divider = 31)) → s.restConditions = true →
    exec .restDelayEnd s = exec .tick s
    ∧ ∃ t, exec .restDelayEnd s = .next t
      ∧ t.rest
          = { part := if s.wakeCondition then .waking else .quiet, timer := if s.wakeCondition then 64 else 0
              divider := 0, due := if s.rest.due = .tick then .none else .sample })
  ∧ ∀ s : State, s.resetLow = false → s.rest.part = .waking →
    ∃ t, exec .wakingEnd s = .next t
      ∧ t.wake = { lines := s.wake.lines, present := s.wake.lines, previous := s.wake.lines, latches := 0 }
      ∧ (∀ w, t.watch w = (s.watch w).map (fun x =>
          { x with
            mark := x.mark || fires { s.wake with present := s.wake.lines, previous := s.wake.lines } x
            stale := 0 }))
      ∧ t.rest = judgedRest { part := .awake, timer := 0, divider := 0, due := .none } t
      ∧ t = { s with wake := t.wake, watches := t.watches, rest := t.rest, changes := [] }

/-- A fall of RESET_N drops every output, each domain's in the order for entry into FAULT (R88, R162). The spec gives
the blocks no state from then to part start: that they stand at their part-start values, that the plan in force is kept, and
that of all commands only inputs, transactions and part start then do anything are the model's (notes/assumptions 11, 21
and 25). -/
def Obligations.ResetHoldsThePart : Prop :=
  (∀ s : State, s.resetLow = false →
     ∃ t, exec .resetAssert s = .next t ∧ t.resetLow = true
       ∧ (∀ d, t.ctrl d = Ctrl.initial d (s.ctrl d).pgood
           ∧ (t.ctrl d).pins = { pen := false, dclk := .stopped, iso := true, drst := true })
       ∧ (∀ c, t.client c = ClientRec.initial ∧ (t.client c).crst = true ∧ t.queue c = Queue.initial
           ∧ (t.queue c).attn = false ∧ t.port c = Port.initial)
       ∧ (∀ i, t.slot i = { gen := 0, cond := .free }) ∧ (∀ w, t.watch w = none)
       ∧ t.wake = { lines := s.wake.lines, present := 0, previous := 0, latches := 0 }
       ∧ t = { State.reset with
           wake := t.wake, ctrls := t.ctrls, miso := s.miso, plan := s.plan, changes := t.changes
           pending := s.pending }
       ∧ ∀ d, t.changes.filter (fun x => decide (outputOf x = some d)) = dropChanges d (s.ctrl d).pins)
  ∧ ∀ (s : State) (c : Instr), s.resetLow = true → HeldLaw s → (∀ a b, c ≠ .partStart a b) → (∀ o k b, c ≠ .send o k b) →
    (∀ o k n, c ≠ .collect o k n) → (∀ o k b, c ≠ .ignoredTransaction o k b) →
    ∃ t, exec c s = .next t
      ∧ (∀ l high, c = .wakeLineChange l high → t.wake.lines.getLsbD l.1 = high)
      ∧ (∀ d, c = .pgoodPresent d → (t.ctrl d).pgood = true)
      ∧ (∀ d a, c = .pgoodLoss { domain := d, ahead := a } → (t.ctrl d).pgood = false)
      ∧ (∀ l, (∀ high, c ≠ .wakeLineChange l high) → t.wake.lines.getLsbD l.1 = s.wake.lines.getLsbD l.1)
      ∧ (∀ d, c ≠ .pgoodPresent d → (∀ a, c ≠ .pgoodLoss { domain := d, ahead := a }) → t.ctrl d = s.ctrl d)
      ∧ (∀ d, t.ctrl d = { s.ctrl d with pgood := (t.ctrl d).pgood })
      ∧ t = { s with wake := { s.wake with lines := t.wake.lines }, ctrls := t.ctrls, changes := t.changes }
      ∧ (t = s ∨ t.changes = [])

/-- Part start: the straps select the plan, the boot leases stand in slots 0 to n−1 in plan order, and every block
has its part-start values; the outputs of a domain that is powered change in their order (R1, R4, R9, R13, R74, R88, R138,
R153, R163 to R165, R170). -/
def Obligations.PartStartInstallsThePlan : Prop :=
  ∀ (s : State) (plan1 plan0 : Bool) (rom : List (Dom × Level)) (window : Nat), s.resetLow = true →
    (rom, window)
      = (match plan1, plan0 with
        | false, false => ([(0, .full)], 2048)
        | false, true => ([(0, .full), (1, .full)], 2048)
        | true, false => ([(0, .full), (1, .full), (2, .full), (3, .full), (4, .slow)], 4096)
        | true, true => ([(0, .full), (4, .slow), (5, .full)], 8192)) →
    ∃ t, exec (.partStart plan1 plan0) s = .next t ∧ t.resetLow = false
      ∧ t.plan.1 = 2 * plan1.toNat + plan0.toNat
      ∧ (∀ i : SlotNo, t.slot i =
          match rom[i.1]? with
          | none => { gen := 0, cond := .free }
          | some x =>
            { gen := 0
              cond := .lease
                { creation := i.1 + 1, owner := .boot, domain := x.1, level := x.2, term := window
                  remaining := some window, lapse := .release, tag := 0, survives := false, binding := none
                  offer := none, expiryMark := false, windowMark := false } })
      ∧ t.counter = rom.length ∧ t.turn = 0 ∧ t.adoption = some window ∧ t.adoptionMark = false
      ∧ t.termClaims = [] ∧ t.windowClaims = [] ∧ (∀ w, t.watch w = none)
      ∧ t.wake = { lines := s.wake.lines, present := s.wake.lines, previous := s.wake.lines, latches := 0 }
      ∧ t.rest = { part := .awake, timer := 0, divider := 0, due := .none }
      ∧ t.supervisor = 0
      ∧ (∀ c, t.client c
            = { causes := { partStart := true, homeLost := false, lapseRestart := false, orderedRestart := false }
                quota := 16, pulse := 0, crst := true, homeLostPending := 0, tied := false }
          ∧ t.queue c = { entries := [], overrun := false, attn := false } ∧ t.port c = Port.initial)
      ∧ (∀ d, t.ctrl d
          = started d (s.ctrl d).pgood (plan1 && plan0) (t.tableDemand d)
              (((Config.defaultTree d).1.map (fun p => effLevel (t.ctrl p).state)).getD none)
          ∧ t.changes.filter (fun x => decide (outputOf x = some d)) = orderedChanges d Pins.offRow (t.ctrl d).pins)
      ∧ t.miso = s.miso ∧ t.pending = s.pending

/-! ## Ports (chapter 12) -/

/-- The judgement of a request frame: torn, good, or bad otherwise, with the header and kind bytes as received. Its CRC
runs over header, kind, length and body, has the values of the spec's example, and followed by itself leaves 0 (R171). That
a frame too short for its length byte is torn, where R23 speaks of FRAME_ERROR, is the model's choice (notes/assumptions
30), and so is that it is torn also where its kind byte is outside 1 to 26 (notes/assumptions 34). -/
def Obligations.FramesAreJudged : Prop :=
  (∀ bytes : List Byte,
    (judgeFrame bytes = .torn ↔
      bytes.length < 3 ∨ ∃ len, bytes[2]? = some len ∧ len.toNat ≤ 24 ∧ bytes.length < len.toNat + 4)
    ∧ (∀ r : Request, judgeFrame bytes = .good r ↔
        ∃ h k : Byte, ∃ body : List Byte, body.length ≤ 24 ∧ kindOfCode k = some r.kind
          ∧ bytes = [h, k, byteOf body.length] ++ body ++ [crc8 ([h, k, byteOf body.length] ++ body)]
          ∧ r.seq = h.setWidth 4 ∧ r.body = body)
    ∧ ∀ h k : Byte, judgeFrame bytes = .bad h k → bytes[0]? = some h ∧ bytes[1]? = some k)
  ∧ (∀ bs : List Byte, crc8 (bs ++ [crc8 bs]) = 0)
  ∧ crc8 [0x01] = 0xF4 ∧ crc8 [0x01, 0x19] = 0x8D ∧ crc8 [0x01, 0x19, 0x00] = 0xAA

/-- A coded field of a request body reads as the value whose code it is and as nothing outside the codes, and the body of a
request kind reads as the values it was written from and as nothing else: a body of another length, with a code outside
the codes or a value outside its range reads as none, which is the form failure of R23 (R5, R23, R61, R92, R94, R124, R150,
R178, R180, R181). The body of CLIENT.CLEARCAUSE has no coded field, and one byte of it counts. -/
def Obligations.EncodedFieldsReadBack : Prop :=
  (∀ h : Handle, ∃ hi lo, handleBytes h = [hi, lo] ∧ handleOfBytes hi lo = h)
  ∧ (∀ (n : Nat) (b : Byte) (c : Fin n), codeBelow n b = some c ↔ b.toNat = c.1)
  ∧ (∀ b l, levelOfCode b = some l ↔ b = levelCode l) ∧ (∀ b a, lapseOfCode b = some a ↔ b = lapseCode a)
  ∧ (∀ b v, boolOfCode b = some v ↔ b = boolCode v)
  ∧ (∀ b o, ownerOfCode b = some o ↔ b = ownerCode o) ∧ (∀ b p, parentOfCode b = some p ↔ b = parentCode p)
  ∧ (∀ b x, senseOfCode b = some x ↔ b = senseCode x) ∧ (∀ b k, kindOfCode b = some k ↔ b = byteOf k.code)
  ∧ (∀ body h, handleArgs body = some h ↔ body = handleBytes h)
  ∧ (∀ (n : Nat) (body : List Byte) (c : Fin n), n ≤ 256 → (codeArgs n body = some c ↔ body = [byteOf c.1]))
  ∧ (∀ (f : CauseFlags) (upper : Byte) (more : List Byte),
      clearMarks ((causeBits f ||| (upper <<< 4)) :: more) = f
      ∧ clearMarks [] = { partStart := false, homeLost := false, lapseRestart := false, orderedRestart := false })
  ∧ (∀ body a, takeArgs body = some a ↔
      a.term ≤ 65535
      ∧ body = [byteOf a.domain.1, levelCode a.level] ++ bytes2 a.term ++ [lapseCode a.lapse] ++ bytes2 a.tag.toNat
          ++ [boolCode a.survives])
  ∧ (∀ body h (new : Option Nat), renewArgs body = some (h, new) ↔
      ∃ term, term ≤ 65535 ∧ body = handleBytes h ++ [boolCode new.isSome] ++ bytes2 term ∧ ∀ n, new = some n → n = term)
  ∧ (∀ body h l, alterArgs body = some (h, l) ↔ body = handleBytes h ++ [levelCode l])
  ∧ (∀ body f cursor, listArgs body = some (f, cursor) ↔
      cursor ≤ 4294967295
      ∧ ((f = .all ∧ ∃ v, body = [0, v] ++ bytes4 cursor)
        ∨ (∃ o, f = .owner o ∧ body = [1, ownerCode o] ++ bytes4 cursor)
        ∨ ∃ d, f = .domain d ∧ body = [2, byteOf d.1] ++ bytes4 cursor))
  ∧ (∀ body h c w, offerArgs body = some (h, c, w) ↔
      1 ≤ w ∧ w ≤ 4095 ∧ body = handleBytes h ++ [byteOf c.1] ++ bytes2 w)
  ∧ (∀ body h a, adoptArgs body = some (h, a) ↔
      a.term ≤ 65535
      ∧ body = handleBytes h ++ bytes2 a.term ++ [lapseCode a.lapse] ++ bytes2 a.tag.toNat ++ [boolCode a.survives])
  ∧ (∀ body a, watchSetArgs body = some a ↔
      a.template.term ≤ 65535 ∧ a.mask ≠ 0
      ∧ body = [byteOf a.bank.1, a.mask, senseCode a.sense] ++ templateBytes a.template)
  ∧ (∀ body d x, setupArgs body = some (d, x) ↔
      setupSound x = true ∧ body = byteOf d.1 :: setupBytes x)
  ∧ (∀ body d k, divideArgs body = some (d, k) ↔ 1 ≤ k ∧ k ≤ 8 ∧ body = [byteOf d.1, byteOf k])
  ∧ ∀ body c q, quotaArgs body = some (c, q) ↔ 1 ≤ q ∧ q ≤ 64 ∧ body = [byteOf c.1, byteOf q]

/-- A SEND does what its judged frame and the port state decide: TORN, BUSY_DROP, FRAME_ERROR, a replay, or held;
a waiting answer is discarded with PRIOR_DISCARDED (R172, R173, R176). That FRAME_ERROR echoes the whole header byte is
the model's reading (notes/assumptions 22). -/
def Obligations.SendsFollowThePortState : Prop :=
  ∀ (s : State) (c : Client) (bytes : List Byte) (q : Port), s.resetLow = false → s.port c = q →
    ∃ t, exec (.send c false bytes) s = .next t
      ∧ (∀ o, o ≠ c → t.port o = s.port o)
      ∧ t.miso.get c = List.replicate (bytes.length + 1) 0xFF#8 ∧ (∀ o, o ≠ c → t.miso.get o = s.miso.get o)
      ∧ t = { s with ports := t.ports, miso := t.miso, rest := t.rest, changes := [] }
      ∧ RestJudged s t
      ∧ (judgeFrame bytes = .torn → t.port c = { q with torn := true })
      ∧ (∀ r, q.state = .held r → judgeFrame bytes ≠ .torn → t.port c = { q with busyDrop := true })
      ∧ (∀ h k, (∀ r, q.state ≠ .held r) → judgeFrame bytes = .bad h k →
          t.port c
            = { q with
                state := .ready
                  { status := .frameError
                    flags :=
                      { priorDiscarded := q.priorDiscarded || decide (q.state ≠ .idle), busyDrop := q.busyDrop
                        torn := q.torn, replay := false, attn := (s.queue c).attn }
                    seqEcho := h, kindEcho := k, body := [] }
                priorDiscarded := false, busyDrop := false, torn := false })
      ∧ (∀ r a, (∀ x, q.state ≠ .held x) → judgeFrame bytes = .good r → r.seq ≠ 0 → q.memory = some r.seq →
          q.saved = some a →
          t.port c
            = { q with
                state := .ready
                  { a with
                    flags :=
                      { priorDiscarded := q.priorDiscarded || decide (q.state ≠ .idle), busyDrop := q.busyDrop
                        torn := q.torn, replay := true, attn := (s.queue c).attn } }
                priorDiscarded := false, busyDrop := false, torn := false })
      ∧ ∀ r, (∀ x, q.state ≠ .held x) → judgeFrame bytes = .good r → (r.seq = 0 ∨ q.memory ≠ some r.seq) →
          t.port c
            = { q with state := .held r, priorDiscarded := q.priorDiscarded || decide (q.state ≠ .idle) }

/-- A COLLECT shifts out FFh and then the waiting answer, or NOT_READY with the held request's echoes, or NO_ANSWER,
and 00h after its CRC; only a whole waiting answer leaves the port IDLE, and nothing else changes (R175, R176). Where a
teardown cuts it off after `cut` bytes, those are served and FFh is driven in the rest (R145, R169). The command stands for
the whole transaction, with the cut told by its sender (notes/assumptions 13 and 24). -/
def Obligations.CollectShiftsTheAnswerOut : Prop :=
  ∀ (s : State) (c : Client) (cut : Option Nat) (n k : Nat) (q : Port) (a : Answer), s.resetLow = false →
    s.port c = q → k = (match cut with | none => n | some b => min b n) →
    (q.state = .ready a
      ∨ (∃ r, q.state = .held r
          ∧ a = { status := .notReady
                  flags := { priorDiscarded := q.priorDiscarded, busyDrop := q.busyDrop, torn := q.torn
                             replay := false, attn := (s.queue c).attn }
                  seqEcho := r.seq.setWidth 8, kindEcho := byteOf r.kind.code, body := [] })
      ∨ (q.state = .idle
          ∧ a = { status := .noAnswer
                  flags := { priorDiscarded := q.priorDiscarded, busyDrop := q.busyDrop, torn := q.torn
                             replay := false, attn := (s.queue c).attn }
                  seqEcho := 0, kindEcho := 0, body := [] })) →
    ∃ t, exec (.collect c cut n) s = .next t
      ∧ t.miso.get c
          = 0xFF#8 :: ((answerFrame a ++ List.replicate n 0x00#8).take k ++ List.replicate (n - k) 0xFF#8)
      ∧ (∀ o, o ≠ c → t.port o = s.port o ∧ t.miso.get o = s.miso.get o)
      ∧ t.port c
          = (if q.state = .ready a ∧ a.body.length + 6 ≤ k then { q with state := .idle } else q)
      ∧ t = { s with ports := t.ports, miso := t.miso, rest := t.rest, changes := [] }
      ∧ RestJudged s t

/-- An ignored transaction sets TORN and changes nothing else; while RESET_N is low, and in a SEND or an ignored
transaction that a teardown or part start cut off, FFh is driven and nothing is noted (R169; that the cut is told by the
sender is the model's choice, notes/assumptions 13). -/
def Obligations.IgnoredTransactionsSetTorn : Prop :=
  (∀ (s : State) (c : Client) (bytes : List Byte), s.resetLow = false → ignorable bytes = true →
    ∃ t, exec (.ignoredTransaction c false bytes) s = .next t
      ∧ t.port c = { s.port c with torn := true } ∧ (∀ o, o ≠ c → t.port o = s.port o)
      ∧ t.miso.get c = List.replicate bytes.length 0xFF#8 ∧ (∀ o, o ≠ c → t.miso.get o = s.miso.get o)
      ∧ t = { s with ports := t.ports, miso := t.miso, rest := t.rest, changes := [] }
      ∧ RestJudged s t)
  ∧ ∀ (s : State) (c : Client) (cut : Bool) (x : Instr) (n : Nat),
    (((s.resetLow = true ∨ cut = true)
        ∧ ((∃ bytes, bytes.length + 1 = n ∧ x = .send c cut bytes)
          ∨ ∃ bytes, bytes.length = n ∧ ignorable bytes = true ∧ x = .ignoredTransaction c cut bytes))
      ∨ (s.resetLow = true ∧ ∃ k m, m + 1 = n ∧ x = .collect c k m)) →
    ∃ t, exec x s = .next t ∧ t.miso.get c = List.replicate n 0xFF#8
      ∧ (∀ o, o ≠ c → t.miso.get o = s.miso.get o)
      ∧ t = { s with miso := t.miso, rest := t.rest, changes := [] } ∧ RestJudged s t

/-! ## What every step keeps -/

/-- Slots and watches pair, and every lease record is sound, through every step (R1, R6, R8, R59). -/
def Obligations.StepsKeepTheTable : Prop :=
  ∀ s t : State, TableLaw s → LeaseLaw s → step s = .next t → TableLaw t ∧ LeaseLaw t

/-- Creation numbers stay all different, from 1 to the counter, through every step (R9 to R11). -/
def Obligations.StepsKeepCreationNumbers : Prop :=
  ∀ s t : State, CreationLaw s → TableLaw s → step s = .next t → CreationLaw t

/-- In every step but those of RESET_N: a slot's generation goes up by one exactly when the slot leaves the LEASE
condition, the supervisor role moves by SUPER.PASS alone, and no lease comes into BOOT's ownership (R4, R8, R151). -/
def Obligations.StepsGuardGenerationsRoleAndBoot : Prop :=
  ∀ (s t : State) (c : Instr), TableLaw s → c ≠ .resetAssert → (∀ a b, c ≠ .partStart a b) → exec c s = .next t →
    (∀ i, (t.slot i).gen
      = (if (s.leaseAt i).isSome = true ∧ t.leaseAt i = none then (s.slot i).gen + 1 else (s.slot i).gen))
    ∧ (c ≠ .superPass → t.supervisor = s.supervisor)
    ∧ ∀ i l, t.leaseAt i = some l → l.owner = .boot → ∃ l', s.leaseAt i = some l' ∧ l'.owner = .boot

/-- No client's charge ever exceeds its quota (R13). -/
def Obligations.StepsKeepTheQuota : Prop :=
  ∀ s t : State, TableLaw s → LeaseLaw s → QuotaLaw s → step s = .next t → QuotaLaw t

/-- At most one claim of a kind waits for a subject, a mark is set only while its claim waits, and every controller
holds the lease demand of the table (R18, R21, R49, R60). -/
def Obligations.StepsKeepClaimsAndDemand : Prop :=
  ∀ s t : State, ClaimLaw s → DemandLaw s → step s = .next t → ClaimLaw t ∧ DemandLaw t

/-- Queues and ports stay sound through every step: at most 16 entries, no two alike, ATTN_N as R160 says; a saved
answer exactly with a sequence memory (R153, R154, R160, R170, R174). -/
def Obligations.StepsKeepQueuesAndPorts : Prop :=
  ∀ s t : State, QueueLaw s → PortLaw s → step s = .next t → QueueLaw t ∧ PortLaw t

/-- Every domain's outputs, cold flag and timer agree with its state; no timer that has run out stands in a timed state;
and CRST_N of a client is asserted exactly while its home is cold, its pulse runs, or the tie of R141 stands, through every
step (R77, R87, R89, R140, R141). That the tie stands over an event that waits at the home is the model's reading
(notes/assumptions 32). While RESET_N is low the part is blank, which Obligations.StepsKeepTheRest keeps and which is the
model's choice (notes/assumptions 11). -/
def Obligations.StepsKeepTheOutputs : Prop :=
  ∀ s t : State, HeldLaw s → OutputLaw s → EndLaw s → ResetLineLaw s → step s = .next t →
    OutputLaw t ∧ EndLaw t ∧ ResetLineLaw t

/-- The domains stay a forest, and no child runs above a parent that has fallen below its need, after any step (R92,
R95, R100, R104, R105). -/
def Obligations.StepsKeepTheTree : Prop :=
  (∀ s t : State, ForestLaw s → step s = .next t → ForestLaw t)
  ∧ ∀ s t : State, TreeLaw s → step s = .next t → TreeLaw t

/-- No demand or parent change is lost: through every step a controller that does not stand where its demand puts it
has an event on its way (R76, R99). A domain's derived demand is the highest need of the children it holds as counted, and
each child is counted as its state and demand stand (R97, R98), except while its own demand change waits: until then the
count handed on last stands, which is the model's reading of R76 and R98 (notes/assumptions 7 and 8). -/
def Obligations.StepsLoseNoEvent : Prop :=
  ∀ s t : State, ForestLaw s → OutputLaw s → TreeLaw s → SettledLaw s → DerivedLaw s → step s = .next t →
    SettledLaw t ∧ DerivedLaw t

/-- While the part is QUIET or WAKING the table holds no lease, every domain is off and no internal claim waits; the part
state agrees with the rest conditions as every event leaves them; and the rest timer and the divider stay in their ranges
(R45, R132 to R136). Every queue stands as it was while the part is QUIET or WAKING (R136, R153). That a demand change or a
teardown that still waits does not keep the part from QUIET, and waits for AWAKE, is the model's reading (notes/assumptions
15). While RESET_N is low the part is blank but for its inputs, MISO and the plan, which is the model's
choice (notes/assumptions 11 and 21). -/
def Obligations.StepsKeepTheRest : Prop :=
  (∀ s t : State, RestLaw s → JudgedLaw s → TimerLaw s → HeldLaw s → step s = .next t →
    RestLaw t ∧ JudgedLaw t ∧ TimerLaw t ∧ HeldLaw t)
  ∧ ∀ (s t : State) (c : Instr), RestLaw s → s.asleep = true → c ≠ .resetAssert → (∀ a b, c ≠ .partStart a b) →
    exec c s = .next t → t.queues = s.queues

/-! ## The layouts (chapter 12) -/

/-- What an answer carries stands where the layouts put it: the codes of R177, R180 and R182, the numbers most significant
byte first, the marks bit by bit, the frame of R175, and the lease, watch, domain and notice images of R182 field by
field, each at its offset, with an absent part as 0. -/
def Obligations.AnswersFollowTheLayouts : Prop :=
  (∀ n : Nat,
    (n < 65536 → ∃ hi lo, bytes2 n = [hi, lo] ∧ hi.toNat * 256 + lo.toNat = n)
    ∧ (n < 4294967296 → ∃ a b c d, bytes4 n = [a, b, c, d]
        ∧ ((a.toNat * 256 + b.toNat) * 256 + c.toNat) * 256 + d.toNat = n))
  ∧ (∀ h : Handle, ∃ hi lo, handleBytes h = [hi, lo] ∧ hi.toNat * 256 + lo.toNat = h.slot.1 * 1024 + h.gen.toNat)
  ∧ [Status.ok, .empty, .overrun, .frameError, .notReady, .noAnswer, .badArgument, .stale, .notOwner, .notSupervisor,
      .tableFull, .quota, .watchesFull, .noWatch, .bound, .offerOpen, .notOffered, .self, .domainBusy, .cycle,
      .notFaulted].map Status.code = (List.range 21).map byteOf
  ∧ [ReqKind.leaseTake, .leaseRenew, .leaseAlter, .leaseRelease, .leaseRead, .leaseList, .leaseRevoke, .leaseOffer,
      .leaseWithdraw, .leaseAccept, .leaseAdopt, .watchSet, .watchDrop, .watchRead, .linesRead, .domainRead,
      .domainSetup, .domainDivide, .domainClear, .clientStatus, .clientClearCause, .clientQuota, .clientRestart,
      .superPass, .noticeFetch, .partIdent].map ReqKind.code = (List.range 26).map (· + 1)
  ∧ [none, some Level.hold, some Level.slow, some Level.full].map reachCode = [0, 1, 2, 3]
  ∧ (∀ l, levelCode l = reachCode (some l)) ∧ (∀ c, ownerCode (.client c) = byteOf c.1) ∧ ownerCode .boot = 4
  ∧ [LeaseStatus.pending, .granted, .faulted].map LeaseStatus.code = [0, 1, 2]
  ∧ [Lapse.release, .restart].map lapseCode = [0, 1] ∧ [false, true].map boolCode = [0, 1]
  ∧ (∀ d, parentCode (some d) = byteOf d.1) ∧ parentCode none = 8
  ∧ [Sense.low, .change, .fall, .rise].map senseCode = [0, 1, 2, 3]
  ∧ [WatchState.armed, .spent].map watchStateCode = [0, 1]
  ∧ (∀ run l, [DomState.off, .powering, .held, .starting run, .slow, .full, .linger l, .discharge, .fault].map
      domStateCode = [0, 1, 2, 3, 4, 5, 6, 7, 8])
  ∧ [FaultCause.none, .ramp, .loss, .recheck].map causeCode = [0, 1, 2, 3]
  ∧ [Presence.absent, .dormant, .present].map Presence.code = [0, 1, 2]
  ∧ [NoticeKind.granted, .ungranted, .faulted, .lapsed, .revoked, .offered, .offerEnded, .watchFired, .domainFault,
      .bootLapsed].map NoticeKind.code = [1, 2, 3, 4, 5, 6, 7, 8, 9, 10]
  ∧ [OfferEnd.accepted, .expired, .targetGone].map OfferEnd.code = [1, 2, 3]
  ∧ (∀ f : CauseFlags,
      (causeBits f).getLsbD 0 = f.partStart ∧ (causeBits f).getLsbD 1 = f.homeLost
      ∧ (causeBits f).getLsbD 2 = f.lapseRestart ∧ (causeBits f).getLsbD 3 = f.orderedRestart
      ∧ (causeBits f).toNat < 16)
  ∧ (∀ f : Flags,
      f.code.getLsbD 0 = f.priorDiscarded ∧ f.code.getLsbD 1 = f.busyDrop ∧ f.code.getLsbD 2 = f.torn
      ∧ f.code.getLsbD 3 = f.replay ∧ f.code.getLsbD 4 = f.attn ∧ f.code.toNat < 32)
  ∧ (∀ a : Answer,
      (answerFrame a).take (a.body.length + 5)
        = [a.status.code, a.flags.code, a.seqEcho, a.kindEcho, byteOf a.body.length] ++ a.body
      ∧ (answerFrame a).length = a.body.length + 6 ∧ crc8 (answerFrame a) = 0)
  ∧ (∀ st : DomState, heldLevel st
      = match st with
        | .starting .slow => some .slow
        | .starting .full => some .full
        | .linger l => some l
        | _ => none)
  ∧ (∀ (s : State) (i : SlotNo) (l : Lease) (image : List Byte), image = s.leaseImage i l →
      image.length = 23
      ∧ field image 0 2 = handleBytes { slot := i, gen := (s.slot i).gen } ∧ field image 2 4 = bytes4 l.creation
      ∧ field image 6 1 = [ownerCode l.owner] ∧ field image 7 1 = [byteOf l.domain.1]
      ∧ field image 8 1 = [levelCode l.level] ∧ field image 9 1 = [statusByte s l.domain l.level]
      ∧ field image 10 2 = bytes2 l.term ∧ field image 12 2 = bytes2 (l.remaining.getD 0)
      ∧ field image 14 1 = [lapseCode l.lapse] ∧ field image 15 1 = [boolCode l.survives]
      ∧ field image 16 2 = bytes2 l.tag.toNat
      ∧ field image 18 1 = [byteOf (l.binding.isSome.toNat + 2 * l.offer.isSome.toNat)]
      ∧ field image 19 1 = (match l.binding with | none => [0] | some w => [byteOf w.1])
      ∧ field image 20 1 = (match l.offer with | none => [0] | some o => [byteOf o.target.1])
      ∧ field image 21 2 = (match l.offer with | none => [0, 0] | some o => bytes2 o.window))
  ∧ (∀ (s : State) (w : WatchId) (x : Watch) (image : List Byte), image = s.watchImage w x →
      image.length = 18
      ∧ field image 0 1 = [byteOf w.1] ∧ field image 1 1 = [byteOf x.owner.1] ∧ field image 2 1 = [byteOf x.bank.1]
      ∧ field image 3 1 = [x.mask] ∧ field image 4 1 = [senseCode x.sense] ∧ field image 5 1 = [watchStateCode x.state]
      ∧ field image 6 1 = [byteOf x.slot.1] ∧ field image 7 1 = [byteOf x.template.domain.1]
      ∧ field image 8 1 = [levelCode x.template.level] ∧ field image 9 2 = bytes2 x.template.term
      ∧ field image 11 1 = [lapseCode x.template.lapse] ∧ field image 12 1 = [boolCode x.template.survives]
      ∧ field image 13 2 = bytes2 x.template.tag.toNat
      ∧ field image 15 1 = [byteOf ((decide (x.state = .spent)).toNat + 2 * x.mark.toNat)]
      ∧ field image 16 2
          = (match x.state with
            | .armed => [0, 0]
            | .spent => handleBytes { slot := x.slot, gen := (s.slot x.slot).gen }))
  ∧ (∀ (s : State) (d : Dom) (r : Ctrl) (image : List Byte), image = s.domainImage d → s.ctrl d = r →
      image.length = 19
      ∧ field image 0 1 = [byteOf d.1] ∧ field image 1 1 = [domStateCode r.state]
      ∧ field image 2 1 = [reachCode (heldLevel r.state)] ∧ field image 3 1 = [reachCode (effLevel r.state)]
      ∧ field image 4 1 = [reachCode (reachMax r.leaseDemand r.derivedDemand)]
      ∧ field image 5 1 = [reachCode r.leaseDemand] ∧ field image 6 1 = [reachCode r.derivedDemand]
      ∧ field image 7 1 = [byteOf (s.leaseCount d)] ∧ field image 8 1 = [byteOf r.timer]
      ∧ field image 9 1 = [boolCode r.cold] ∧ field image 10 1 = [causeCode r.cause]
      ∧ field image 11 1 = [parentCode r.setup.parent] ∧ field image 12 1 = [levelCode r.setup.need]
      ∧ field image 13 1 = [byteOf r.setup.ramp] ∧ field image 14 1 = [byteOf r.setup.settle]
      ∧ field image 15 1 = [byteOf r.setup.linger] ∧ field image 16 1 = [byteOf r.setup.discharge]
      ∧ field image 17 1 = [boolCode r.setup.monitor] ∧ field image 18 1 = [byteOf r.divisor])
  ∧ (∀ (e : Entry) (image : List Byte), image = noticeImage e →
      image.length = 9
      ∧ field image 0 1 = [e.kind.code]
      ∧ field image 1 2
          = (match e.subject with
            | .lease h => handleBytes h
            | .watch w => [0, byteOf w.1]
            | .domain d => [0, byteOf d.1])
      ∧ field image 3 5
          = (match e.detail with
            | .level d l => [byteOf d.1, levelCode l, 0, 0, 0]
            | .cause d c => [byteOf d.1, causeCode c, 0, 0, 0]
            | .offered c d l w => [byteOf c.1, byteOf d.1, levelCode l] ++ bytes2 w
            | .ended c w => [byteOf c.1, w.code, 0, 0, 0]
            | .handle h => handleBytes h ++ [0, 0, 0]
            | .fault c => [causeCode c, 0, 0, 0, 0]
            | .boot h l => handleBytes h ++ [levelCode l, 0, 0])
      ∧ field image 8 1 = [byteOf e.count])
end

