-- ==== Sys2Proof/Laws/Vec.lean ====
section
/-! SUPPORT. Reading a record after a record of the table was replaced. -/

namespace Sys2Proof

variable {α β : Type} {n : Nat}

@[simp] theorem Vec.get_set_self (v : Vec α n) (i : Fin n) (x : α) : (v.set i x).get i = x := by
  simp [Vec.get, Vec.set]

theorem Vec.get_set_ne (v : Vec α n) {i j : Fin n} (x : α) (h : j ≠ i) : (v.set i x).get j = v.get j := by
  have : i.1 ≠ j.1 := fun e => h (Fin.ext e.symm)
  simp [Vec.get, Vec.set, List.getElem_set_ne this]

theorem Vec.get_set (v : Vec α n) (i j : Fin n) (x : α) :
    (v.set i x).get j = if j = i then x else v.get j := by
  by_cases h : j = i
  · subst h; simp
  · simp [h, Vec.get_set_ne]

@[simp] theorem Vec.get_map (f : α → β) (v : Vec α n) (i : Fin n) : (v.map f).get i = f (v.get i) := by
  simp [Vec.get, Vec.map]

@[simp] theorem Vec.get_ofFn (f : Fin n → α) (i : Fin n) : (Vec.ofFn f).get i = f i := by
  simp [Vec.get, Vec.ofFn]

@[simp] theorem Vec.get_replicate (x : α) (i : Fin n) : (Vec.replicate n x).get i = x := by
  simp [Vec.get, Vec.replicate]

theorem Vec.ext {v w : Vec α n} (h : ∀ i, v.get i = w.get i) : v = w := by
  apply Subtype.ext
  apply List.ext_getElem (v.2.trans w.2.symm)
  intro i h₁ h₂
  exact h ⟨i, v.2 ▸ h₁⟩

@[simp] theorem Vec.set_get (v : Vec α n) (i : Fin n) : v.set i (v.get i) = v := by
  apply Vec.ext
  intro j
  rw [Vec.get_set]
  split <;> simp_all

end Sys2Proof
end

