-- ==== Sys2Proof/Laws/State.lean ====
section
/-! SUPPORT. One lemma per field per update of the state, true by `rfl`. -/

namespace Sys2Proof.Machine

variable (s : State)

@[simp] theorem State.setSlot_counter (i : SlotNo) (r : SlotRec) : (s.setSlot i r).counter = s.counter := rfl
@[simp] theorem State.setSlot_turn (i : SlotNo) (r : SlotRec) : (s.setSlot i r).turn = s.turn := rfl
@[simp] theorem State.setSlot_termClaims (i : SlotNo) (r : SlotRec) : (s.setSlot i r).termClaims = s.termClaims := rfl
@[simp] theorem State.setSlot_windowClaims (i : SlotNo) (r : SlotRec) : (s.setSlot i r).windowClaims = s.windowClaims := rfl
@[simp] theorem State.setSlot_adoption (i : SlotNo) (r : SlotRec) : (s.setSlot i r).adoption = s.adoption := rfl
@[simp] theorem State.setSlot_adoptionMark (i : SlotNo) (r : SlotRec) : (s.setSlot i r).adoptionMark = s.adoptionMark := rfl
@[simp] theorem State.setSlot_watches (i : SlotNo) (r : SlotRec) : (s.setSlot i r).watches = s.watches := rfl
@[simp] theorem State.setSlot_wake (i : SlotNo) (r : SlotRec) : (s.setSlot i r).wake = s.wake := rfl
@[simp] theorem State.setSlot_rest (i : SlotNo) (r : SlotRec) : (s.setSlot i r).rest = s.rest := rfl
@[simp] theorem State.setSlot_ctrls (i : SlotNo) (r : SlotRec) : (s.setSlot i r).ctrls = s.ctrls := rfl
@[simp] theorem State.setSlot_clients (i : SlotNo) (r : SlotRec) : (s.setSlot i r).clients = s.clients := rfl
@[simp] theorem State.setSlot_supervisor (i : SlotNo) (r : SlotRec) : (s.setSlot i r).supervisor = s.supervisor := rfl
@[simp] theorem State.setSlot_queues (i : SlotNo) (r : SlotRec) : (s.setSlot i r).queues = s.queues := rfl
@[simp] theorem State.setSlot_ports (i : SlotNo) (r : SlotRec) : (s.setSlot i r).ports = s.ports := rfl
@[simp] theorem State.setSlot_miso (i : SlotNo) (r : SlotRec) : (s.setSlot i r).miso = s.miso := rfl
@[simp] theorem State.setSlot_plan (i : SlotNo) (r : SlotRec) : (s.setSlot i r).plan = s.plan := rfl
@[simp] theorem State.setSlot_resetLow (i : SlotNo) (r : SlotRec) : (s.setSlot i r).resetLow = s.resetLow := rfl
@[simp] theorem State.setSlot_changes (i : SlotNo) (r : SlotRec) : (s.setSlot i r).changes = s.changes := rfl
@[simp] theorem State.setSlot_pending (i : SlotNo) (r : SlotRec) : (s.setSlot i r).pending = s.pending := rfl
@[simp] theorem State.setSlot_watch (i : SlotNo) (r : SlotRec) (j : WatchId) : (s.setSlot i r).watch j = s.watch j := rfl
@[simp] theorem State.setSlot_ctrl (i : SlotNo) (r : SlotRec) (j : Dom) : (s.setSlot i r).ctrl j = s.ctrl j := rfl
@[simp] theorem State.setSlot_client (i : SlotNo) (r : SlotRec) (j : Client) : (s.setSlot i r).client j = s.client j := rfl
@[simp] theorem State.setSlot_queue (i : SlotNo) (r : SlotRec) (j : Client) : (s.setSlot i r).queue j = s.queue j := rfl
@[simp] theorem State.setSlot_port (i : SlotNo) (r : SlotRec) (j : Client) : (s.setSlot i r).port j = s.port j := rfl
@[simp] theorem State.setSlot_slot_self (i : SlotNo) (r : SlotRec) : (s.setSlot i r).slot i = r := Vec.get_set_self _ _ _
theorem State.setSlot_slot (i : SlotNo) (r : SlotRec) (j : SlotNo) : (s.setSlot i r).slot j = if j = i then r else s.slot j := Vec.get_set _ _ _ _
theorem State.setSlot_slot_ne (i : SlotNo) (r : SlotRec) {j : SlotNo} (h : j ≠ i) : (s.setSlot i r).slot j = s.slot j := Vec.get_set_ne _ _ h

@[simp] theorem State.setWatch_slots (i : WatchId) (r : Option Watch) : (s.setWatch i r).slots = s.slots := rfl
@[simp] theorem State.setWatch_counter (i : WatchId) (r : Option Watch) : (s.setWatch i r).counter = s.counter := rfl
@[simp] theorem State.setWatch_turn (i : WatchId) (r : Option Watch) : (s.setWatch i r).turn = s.turn := rfl
@[simp] theorem State.setWatch_termClaims (i : WatchId) (r : Option Watch) : (s.setWatch i r).termClaims = s.termClaims := rfl
@[simp] theorem State.setWatch_windowClaims (i : WatchId) (r : Option Watch) : (s.setWatch i r).windowClaims = s.windowClaims := rfl
@[simp] theorem State.setWatch_adoption (i : WatchId) (r : Option Watch) : (s.setWatch i r).adoption = s.adoption := rfl
@[simp] theorem State.setWatch_adoptionMark (i : WatchId) (r : Option Watch) : (s.setWatch i r).adoptionMark = s.adoptionMark := rfl
@[simp] theorem State.setWatch_wake (i : WatchId) (r : Option Watch) : (s.setWatch i r).wake = s.wake := rfl
@[simp] theorem State.setWatch_rest (i : WatchId) (r : Option Watch) : (s.setWatch i r).rest = s.rest := rfl
@[simp] theorem State.setWatch_ctrls (i : WatchId) (r : Option Watch) : (s.setWatch i r).ctrls = s.ctrls := rfl
@[simp] theorem State.setWatch_clients (i : WatchId) (r : Option Watch) : (s.setWatch i r).clients = s.clients := rfl
@[simp] theorem State.setWatch_supervisor (i : WatchId) (r : Option Watch) : (s.setWatch i r).supervisor = s.supervisor := rfl
@[simp] theorem State.setWatch_queues (i : WatchId) (r : Option Watch) : (s.setWatch i r).queues = s.queues := rfl
@[simp] theorem State.setWatch_ports (i : WatchId) (r : Option Watch) : (s.setWatch i r).ports = s.ports := rfl
@[simp] theorem State.setWatch_miso (i : WatchId) (r : Option Watch) : (s.setWatch i r).miso = s.miso := rfl
@[simp] theorem State.setWatch_plan (i : WatchId) (r : Option Watch) : (s.setWatch i r).plan = s.plan := rfl
@[simp] theorem State.setWatch_resetLow (i : WatchId) (r : Option Watch) : (s.setWatch i r).resetLow = s.resetLow := rfl
@[simp] theorem State.setWatch_changes (i : WatchId) (r : Option Watch) : (s.setWatch i r).changes = s.changes := rfl
@[simp] theorem State.setWatch_pending (i : WatchId) (r : Option Watch) : (s.setWatch i r).pending = s.pending := rfl
@[simp] theorem State.setWatch_slot (i : WatchId) (r : Option Watch) (j : SlotNo) : (s.setWatch i r).slot j = s.slot j := rfl
@[simp] theorem State.setWatch_ctrl (i : WatchId) (r : Option Watch) (j : Dom) : (s.setWatch i r).ctrl j = s.ctrl j := rfl
@[simp] theorem State.setWatch_client (i : WatchId) (r : Option Watch) (j : Client) : (s.setWatch i r).client j = s.client j := rfl
@[simp] theorem State.setWatch_queue (i : WatchId) (r : Option Watch) (j : Client) : (s.setWatch i r).queue j = s.queue j := rfl
@[simp] theorem State.setWatch_port (i : WatchId) (r : Option Watch) (j : Client) : (s.setWatch i r).port j = s.port j := rfl
@[simp] theorem State.setWatch_watch_self (i : WatchId) (r : Option Watch) : (s.setWatch i r).watch i = r := Vec.get_set_self _ _ _
theorem State.setWatch_watch (i : WatchId) (r : Option Watch) (j : WatchId) : (s.setWatch i r).watch j = if j = i then r else s.watch j := Vec.get_set _ _ _ _
theorem State.setWatch_watch_ne (i : WatchId) (r : Option Watch) {j : WatchId} (h : j ≠ i) : (s.setWatch i r).watch j = s.watch j := Vec.get_set_ne _ _ h

@[simp] theorem State.setCtrl_slots (i : Dom) (r : Ctrl) : (s.setCtrl i r).slots = s.slots := rfl
@[simp] theorem State.setCtrl_counter (i : Dom) (r : Ctrl) : (s.setCtrl i r).counter = s.counter := rfl
@[simp] theorem State.setCtrl_turn (i : Dom) (r : Ctrl) : (s.setCtrl i r).turn = s.turn := rfl
@[simp] theorem State.setCtrl_termClaims (i : Dom) (r : Ctrl) : (s.setCtrl i r).termClaims = s.termClaims := rfl
@[simp] theorem State.setCtrl_windowClaims (i : Dom) (r : Ctrl) : (s.setCtrl i r).windowClaims = s.windowClaims := rfl
@[simp] theorem State.setCtrl_adoption (i : Dom) (r : Ctrl) : (s.setCtrl i r).adoption = s.adoption := rfl
@[simp] theorem State.setCtrl_adoptionMark (i : Dom) (r : Ctrl) : (s.setCtrl i r).adoptionMark = s.adoptionMark := rfl
@[simp] theorem State.setCtrl_watches (i : Dom) (r : Ctrl) : (s.setCtrl i r).watches = s.watches := rfl
@[simp] theorem State.setCtrl_wake (i : Dom) (r : Ctrl) : (s.setCtrl i r).wake = s.wake := rfl
@[simp] theorem State.setCtrl_rest (i : Dom) (r : Ctrl) : (s.setCtrl i r).rest = s.rest := rfl
@[simp] theorem State.setCtrl_clients (i : Dom) (r : Ctrl) : (s.setCtrl i r).clients = s.clients := rfl
@[simp] theorem State.setCtrl_supervisor (i : Dom) (r : Ctrl) : (s.setCtrl i r).supervisor = s.supervisor := rfl
@[simp] theorem State.setCtrl_queues (i : Dom) (r : Ctrl) : (s.setCtrl i r).queues = s.queues := rfl
@[simp] theorem State.setCtrl_ports (i : Dom) (r : Ctrl) : (s.setCtrl i r).ports = s.ports := rfl
@[simp] theorem State.setCtrl_miso (i : Dom) (r : Ctrl) : (s.setCtrl i r).miso = s.miso := rfl
@[simp] theorem State.setCtrl_plan (i : Dom) (r : Ctrl) : (s.setCtrl i r).plan = s.plan := rfl
@[simp] theorem State.setCtrl_resetLow (i : Dom) (r : Ctrl) : (s.setCtrl i r).resetLow = s.resetLow := rfl
@[simp] theorem State.setCtrl_changes (i : Dom) (r : Ctrl) : (s.setCtrl i r).changes = s.changes := rfl
@[simp] theorem State.setCtrl_pending (i : Dom) (r : Ctrl) : (s.setCtrl i r).pending = s.pending := rfl
@[simp] theorem State.setCtrl_slot (i : Dom) (r : Ctrl) (j : SlotNo) : (s.setCtrl i r).slot j = s.slot j := rfl
@[simp] theorem State.setCtrl_watch (i : Dom) (r : Ctrl) (j : WatchId) : (s.setCtrl i r).watch j = s.watch j := rfl
@[simp] theorem State.setCtrl_client (i : Dom) (r : Ctrl) (j : Client) : (s.setCtrl i r).client j = s.client j := rfl
@[simp] theorem State.setCtrl_queue (i : Dom) (r : Ctrl) (j : Client) : (s.setCtrl i r).queue j = s.queue j := rfl
@[simp] theorem State.setCtrl_port (i : Dom) (r : Ctrl) (j : Client) : (s.setCtrl i r).port j = s.port j := rfl
@[simp] theorem State.setCtrl_ctrl_self (i : Dom) (r : Ctrl) : (s.setCtrl i r).ctrl i = r := Vec.get_set_self _ _ _
theorem State.setCtrl_ctrl (i : Dom) (r : Ctrl) (j : Dom) : (s.setCtrl i r).ctrl j = if j = i then r else s.ctrl j := Vec.get_set _ _ _ _
theorem State.setCtrl_ctrl_ne (i : Dom) (r : Ctrl) {j : Dom} (h : j ≠ i) : (s.setCtrl i r).ctrl j = s.ctrl j := Vec.get_set_ne _ _ h

@[simp] theorem State.setClient_slots (i : Client) (r : ClientRec) : (s.setClient i r).slots = s.slots := rfl
@[simp] theorem State.setClient_counter (i : Client) (r : ClientRec) : (s.setClient i r).counter = s.counter := rfl
@[simp] theorem State.setClient_turn (i : Client) (r : ClientRec) : (s.setClient i r).turn = s.turn := rfl
@[simp] theorem State.setClient_termClaims (i : Client) (r : ClientRec) : (s.setClient i r).termClaims = s.termClaims := rfl
@[simp] theorem State.setClient_windowClaims (i : Client) (r : ClientRec) : (s.setClient i r).windowClaims = s.windowClaims := rfl
@[simp] theorem State.setClient_adoption (i : Client) (r : ClientRec) : (s.setClient i r).adoption = s.adoption := rfl
@[simp] theorem State.setClient_adoptionMark (i : Client) (r : ClientRec) : (s.setClient i r).adoptionMark = s.adoptionMark := rfl
@[simp] theorem State.setClient_watches (i : Client) (r : ClientRec) : (s.setClient i r).watches = s.watches := rfl
@[simp] theorem State.setClient_wake (i : Client) (r : ClientRec) : (s.setClient i r).wake = s.wake := rfl
@[simp] theorem State.setClient_rest (i : Client) (r : ClientRec) : (s.setClient i r).rest = s.rest := rfl
@[simp] theorem State.setClient_ctrls (i : Client) (r : ClientRec) : (s.setClient i r).ctrls = s.ctrls := rfl
@[simp] theorem State.setClient_supervisor (i : Client) (r : ClientRec) : (s.setClient i r).supervisor = s.supervisor := rfl
@[simp] theorem State.setClient_queues (i : Client) (r : ClientRec) : (s.setClient i r).queues = s.queues := rfl
@[simp] theorem State.setClient_ports (i : Client) (r : ClientRec) : (s.setClient i r).ports = s.ports := rfl
@[simp] theorem State.setClient_miso (i : Client) (r : ClientRec) : (s.setClient i r).miso = s.miso := rfl
@[simp] theorem State.setClient_plan (i : Client) (r : ClientRec) : (s.setClient i r).plan = s.plan := rfl
@[simp] theorem State.setClient_resetLow (i : Client) (r : ClientRec) : (s.setClient i r).resetLow = s.resetLow := rfl
@[simp] theorem State.setClient_changes (i : Client) (r : ClientRec) : (s.setClient i r).changes = s.changes := rfl
@[simp] theorem State.setClient_pending (i : Client) (r : ClientRec) : (s.setClient i r).pending = s.pending := rfl
@[simp] theorem State.setClient_slot (i : Client) (r : ClientRec) (j : SlotNo) : (s.setClient i r).slot j = s.slot j := rfl
@[simp] theorem State.setClient_watch (i : Client) (r : ClientRec) (j : WatchId) : (s.setClient i r).watch j = s.watch j := rfl
@[simp] theorem State.setClient_ctrl (i : Client) (r : ClientRec) (j : Dom) : (s.setClient i r).ctrl j = s.ctrl j := rfl
@[simp] theorem State.setClient_queue (i : Client) (r : ClientRec) (j : Client) : (s.setClient i r).queue j = s.queue j := rfl
@[simp] theorem State.setClient_port (i : Client) (r : ClientRec) (j : Client) : (s.setClient i r).port j = s.port j := rfl
@[simp] theorem State.setClient_client_self (i : Client) (r : ClientRec) : (s.setClient i r).client i = r := Vec.get_set_self _ _ _
theorem State.setClient_client (i : Client) (r : ClientRec) (j : Client) : (s.setClient i r).client j = if j = i then r else s.client j := Vec.get_set _ _ _ _
theorem State.setClient_client_ne (i : Client) (r : ClientRec) {j : Client} (h : j ≠ i) : (s.setClient i r).client j = s.client j := Vec.get_set_ne _ _ h

@[simp] theorem State.setQueue_slots (i : Client) (r : Queue) : (s.setQueue i r).slots = s.slots := rfl
@[simp] theorem State.setQueue_counter (i : Client) (r : Queue) : (s.setQueue i r).counter = s.counter := rfl
@[simp] theorem State.setQueue_turn (i : Client) (r : Queue) : (s.setQueue i r).turn = s.turn := rfl
@[simp] theorem State.setQueue_termClaims (i : Client) (r : Queue) : (s.setQueue i r).termClaims = s.termClaims := rfl
@[simp] theorem State.setQueue_windowClaims (i : Client) (r : Queue) : (s.setQueue i r).windowClaims = s.windowClaims := rfl
@[simp] theorem State.setQueue_adoption (i : Client) (r : Queue) : (s.setQueue i r).adoption = s.adoption := rfl
@[simp] theorem State.setQueue_adoptionMark (i : Client) (r : Queue) : (s.setQueue i r).adoptionMark = s.adoptionMark := rfl
@[simp] theorem State.setQueue_watches (i : Client) (r : Queue) : (s.setQueue i r).watches = s.watches := rfl
@[simp] theorem State.setQueue_wake (i : Client) (r : Queue) : (s.setQueue i r).wake = s.wake := rfl
@[simp] theorem State.setQueue_rest (i : Client) (r : Queue) : (s.setQueue i r).rest = s.rest := rfl
@[simp] theorem State.setQueue_ctrls (i : Client) (r : Queue) : (s.setQueue i r).ctrls = s.ctrls := rfl
@[simp] theorem State.setQueue_clients (i : Client) (r : Queue) : (s.setQueue i r).clients = s.clients := rfl
@[simp] theorem State.setQueue_supervisor (i : Client) (r : Queue) : (s.setQueue i r).supervisor = s.supervisor := rfl
@[simp] theorem State.setQueue_ports (i : Client) (r : Queue) : (s.setQueue i r).ports = s.ports := rfl
@[simp] theorem State.setQueue_miso (i : Client) (r : Queue) : (s.setQueue i r).miso = s.miso := rfl
@[simp] theorem State.setQueue_plan (i : Client) (r : Queue) : (s.setQueue i r).plan = s.plan := rfl
@[simp] theorem State.setQueue_resetLow (i : Client) (r : Queue) : (s.setQueue i r).resetLow = s.resetLow := rfl
@[simp] theorem State.setQueue_changes (i : Client) (r : Queue) : (s.setQueue i r).changes = s.changes := rfl
@[simp] theorem State.setQueue_pending (i : Client) (r : Queue) : (s.setQueue i r).pending = s.pending := rfl
@[simp] theorem State.setQueue_slot (i : Client) (r : Queue) (j : SlotNo) : (s.setQueue i r).slot j = s.slot j := rfl
@[simp] theorem State.setQueue_watch (i : Client) (r : Queue) (j : WatchId) : (s.setQueue i r).watch j = s.watch j := rfl
@[simp] theorem State.setQueue_ctrl (i : Client) (r : Queue) (j : Dom) : (s.setQueue i r).ctrl j = s.ctrl j := rfl
@[simp] theorem State.setQueue_client (i : Client) (r : Queue) (j : Client) : (s.setQueue i r).client j = s.client j := rfl
@[simp] theorem State.setQueue_port (i : Client) (r : Queue) (j : Client) : (s.setQueue i r).port j = s.port j := rfl
@[simp] theorem State.setQueue_queue_self (i : Client) (r : Queue) : (s.setQueue i r).queue i = r := Vec.get_set_self _ _ _
theorem State.setQueue_queue (i : Client) (r : Queue) (j : Client) : (s.setQueue i r).queue j = if j = i then r else s.queue j := Vec.get_set _ _ _ _
theorem State.setQueue_queue_ne (i : Client) (r : Queue) {j : Client} (h : j ≠ i) : (s.setQueue i r).queue j = s.queue j := Vec.get_set_ne _ _ h

@[simp] theorem State.setPort_slots (i : Client) (r : Port) : (s.setPort i r).slots = s.slots := rfl
@[simp] theorem State.setPort_counter (i : Client) (r : Port) : (s.setPort i r).counter = s.counter := rfl
@[simp] theorem State.setPort_turn (i : Client) (r : Port) : (s.setPort i r).turn = s.turn := rfl
@[simp] theorem State.setPort_termClaims (i : Client) (r : Port) : (s.setPort i r).termClaims = s.termClaims := rfl
@[simp] theorem State.setPort_windowClaims (i : Client) (r : Port) : (s.setPort i r).windowClaims = s.windowClaims := rfl
@[simp] theorem State.setPort_adoption (i : Client) (r : Port) : (s.setPort i r).adoption = s.adoption := rfl
@[simp] theorem State.setPort_adoptionMark (i : Client) (r : Port) : (s.setPort i r).adoptionMark = s.adoptionMark := rfl
@[simp] theorem State.setPort_watches (i : Client) (r : Port) : (s.setPort i r).watches = s.watches := rfl
@[simp] theorem State.setPort_wake (i : Client) (r : Port) : (s.setPort i r).wake = s.wake := rfl
@[simp] theorem State.setPort_rest (i : Client) (r : Port) : (s.setPort i r).rest = s.rest := rfl
@[simp] theorem State.setPort_ctrls (i : Client) (r : Port) : (s.setPort i r).ctrls = s.ctrls := rfl
@[simp] theorem State.setPort_clients (i : Client) (r : Port) : (s.setPort i r).clients = s.clients := rfl
@[simp] theorem State.setPort_supervisor (i : Client) (r : Port) : (s.setPort i r).supervisor = s.supervisor := rfl
@[simp] theorem State.setPort_queues (i : Client) (r : Port) : (s.setPort i r).queues = s.queues := rfl
@[simp] theorem State.setPort_miso (i : Client) (r : Port) : (s.setPort i r).miso = s.miso := rfl
@[simp] theorem State.setPort_plan (i : Client) (r : Port) : (s.setPort i r).plan = s.plan := rfl
@[simp] theorem State.setPort_resetLow (i : Client) (r : Port) : (s.setPort i r).resetLow = s.resetLow := rfl
@[simp] theorem State.setPort_changes (i : Client) (r : Port) : (s.setPort i r).changes = s.changes := rfl
@[simp] theorem State.setPort_pending (i : Client) (r : Port) : (s.setPort i r).pending = s.pending := rfl
@[simp] theorem State.setPort_slot (i : Client) (r : Port) (j : SlotNo) : (s.setPort i r).slot j = s.slot j := rfl
@[simp] theorem State.setPort_watch (i : Client) (r : Port) (j : WatchId) : (s.setPort i r).watch j = s.watch j := rfl
@[simp] theorem State.setPort_ctrl (i : Client) (r : Port) (j : Dom) : (s.setPort i r).ctrl j = s.ctrl j := rfl
@[simp] theorem State.setPort_client (i : Client) (r : Port) (j : Client) : (s.setPort i r).client j = s.client j := rfl
@[simp] theorem State.setPort_queue (i : Client) (r : Port) (j : Client) : (s.setPort i r).queue j = s.queue j := rfl
@[simp] theorem State.setPort_port_self (i : Client) (r : Port) : (s.setPort i r).port i = r := Vec.get_set_self _ _ _
theorem State.setPort_port (i : Client) (r : Port) (j : Client) : (s.setPort i r).port j = if j = i then r else s.port j := Vec.get_set _ _ _ _
theorem State.setPort_port_ne (i : Client) (r : Port) {j : Client} (h : j ≠ i) : (s.setPort i r).port j = s.port j := Vec.get_set_ne _ _ h

@[simp] theorem State.begin_slots : (s.begin).slots = s.slots := rfl
@[simp] theorem State.begin_counter : (s.begin).counter = s.counter := rfl
@[simp] theorem State.begin_turn : (s.begin).turn = s.turn := rfl
@[simp] theorem State.begin_termClaims : (s.begin).termClaims = s.termClaims := rfl
@[simp] theorem State.begin_windowClaims : (s.begin).windowClaims = s.windowClaims := rfl
@[simp] theorem State.begin_adoption : (s.begin).adoption = s.adoption := rfl
@[simp] theorem State.begin_adoptionMark : (s.begin).adoptionMark = s.adoptionMark := rfl
@[simp] theorem State.begin_watches : (s.begin).watches = s.watches := rfl
@[simp] theorem State.begin_wake : (s.begin).wake = s.wake := rfl
@[simp] theorem State.begin_rest : (s.begin).rest = s.rest := rfl
@[simp] theorem State.begin_ctrls : (s.begin).ctrls = s.ctrls := rfl
@[simp] theorem State.begin_clients : (s.begin).clients = s.clients := rfl
@[simp] theorem State.begin_supervisor : (s.begin).supervisor = s.supervisor := rfl
@[simp] theorem State.begin_queues : (s.begin).queues = s.queues := rfl
@[simp] theorem State.begin_ports : (s.begin).ports = s.ports := rfl
@[simp] theorem State.begin_miso : (s.begin).miso = s.miso := rfl
@[simp] theorem State.begin_plan : (s.begin).plan = s.plan := rfl
@[simp] theorem State.begin_resetLow : (s.begin).resetLow = s.resetLow := rfl
@[simp] theorem State.begin_pending : (s.begin).pending = s.pending := rfl
@[simp] theorem State.begin_slot (j : SlotNo) : (s.begin).slot j = s.slot j := rfl
@[simp] theorem State.begin_watch (j : WatchId) : (s.begin).watch j = s.watch j := rfl
@[simp] theorem State.begin_ctrl (j : Dom) : (s.begin).ctrl j = s.ctrl j := rfl
@[simp] theorem State.begin_client (j : Client) : (s.begin).client j = s.client j := rfl
@[simp] theorem State.begin_queue (j : Client) : (s.begin).queue j = s.queue j := rfl
@[simp] theorem State.begin_port (j : Client) : (s.begin).port j = s.port j := rfl

@[simp] theorem State.emit_slots (p : PinChange) : (s.emit p).slots = s.slots := rfl
@[simp] theorem State.emit_counter (p : PinChange) : (s.emit p).counter = s.counter := rfl
@[simp] theorem State.emit_turn (p : PinChange) : (s.emit p).turn = s.turn := rfl
@[simp] theorem State.emit_termClaims (p : PinChange) : (s.emit p).termClaims = s.termClaims := rfl
@[simp] theorem State.emit_windowClaims (p : PinChange) : (s.emit p).windowClaims = s.windowClaims := rfl
@[simp] theorem State.emit_adoption (p : PinChange) : (s.emit p).adoption = s.adoption := rfl
@[simp] theorem State.emit_adoptionMark (p : PinChange) : (s.emit p).adoptionMark = s.adoptionMark := rfl
@[simp] theorem State.emit_watches (p : PinChange) : (s.emit p).watches = s.watches := rfl
@[simp] theorem State.emit_wake (p : PinChange) : (s.emit p).wake = s.wake := rfl
@[simp] theorem State.emit_rest (p : PinChange) : (s.emit p).rest = s.rest := rfl
@[simp] theorem State.emit_ctrls (p : PinChange) : (s.emit p).ctrls = s.ctrls := rfl
@[simp] theorem State.emit_clients (p : PinChange) : (s.emit p).clients = s.clients := rfl
@[simp] theorem State.emit_supervisor (p : PinChange) : (s.emit p).supervisor = s.supervisor := rfl
@[simp] theorem State.emit_queues (p : PinChange) : (s.emit p).queues = s.queues := rfl
@[simp] theorem State.emit_ports (p : PinChange) : (s.emit p).ports = s.ports := rfl
@[simp] theorem State.emit_miso (p : PinChange) : (s.emit p).miso = s.miso := rfl
@[simp] theorem State.emit_plan (p : PinChange) : (s.emit p).plan = s.plan := rfl
@[simp] theorem State.emit_resetLow (p : PinChange) : (s.emit p).resetLow = s.resetLow := rfl
@[simp] theorem State.emit_pending (p : PinChange) : (s.emit p).pending = s.pending := rfl
@[simp] theorem State.emit_slot (p : PinChange) (j : SlotNo) : (s.emit p).slot j = s.slot j := rfl
@[simp] theorem State.emit_watch (p : PinChange) (j : WatchId) : (s.emit p).watch j = s.watch j := rfl
@[simp] theorem State.emit_ctrl (p : PinChange) (j : Dom) : (s.emit p).ctrl j = s.ctrl j := rfl
@[simp] theorem State.emit_client (p : PinChange) (j : Client) : (s.emit p).client j = s.client j := rfl
@[simp] theorem State.emit_queue (p : PinChange) (j : Client) : (s.emit p).queue j = s.queue j := rfl
@[simp] theorem State.emit_port (p : PinChange) (j : Client) : (s.emit p).port j = s.port j := rfl

@[simp] theorem State.enterPart_slots (p : PartState) (n : Nat) : (s.enterPart p n).slots = s.slots := rfl
@[simp] theorem State.enterPart_counter (p : PartState) (n : Nat) : (s.enterPart p n).counter = s.counter := rfl
@[simp] theorem State.enterPart_turn (p : PartState) (n : Nat) : (s.enterPart p n).turn = s.turn := rfl
@[simp] theorem State.enterPart_termClaims (p : PartState) (n : Nat) : (s.enterPart p n).termClaims = s.termClaims := rfl
@[simp] theorem State.enterPart_windowClaims (p : PartState) (n : Nat) : (s.enterPart p n).windowClaims = s.windowClaims := rfl
@[simp] theorem State.enterPart_adoption (p : PartState) (n : Nat) : (s.enterPart p n).adoption = s.adoption := rfl
@[simp] theorem State.enterPart_adoptionMark (p : PartState) (n : Nat) : (s.enterPart p n).adoptionMark = s.adoptionMark := rfl
@[simp] theorem State.enterPart_watches (p : PartState) (n : Nat) : (s.enterPart p n).watches = s.watches := rfl
@[simp] theorem State.enterPart_wake (p : PartState) (n : Nat) : (s.enterPart p n).wake = s.wake := rfl
@[simp] theorem State.enterPart_ctrls (p : PartState) (n : Nat) : (s.enterPart p n).ctrls = s.ctrls := rfl
@[simp] theorem State.enterPart_clients (p : PartState) (n : Nat) : (s.enterPart p n).clients = s.clients := rfl
@[simp] theorem State.enterPart_supervisor (p : PartState) (n : Nat) : (s.enterPart p n).supervisor = s.supervisor := rfl
@[simp] theorem State.enterPart_queues (p : PartState) (n : Nat) : (s.enterPart p n).queues = s.queues := rfl
@[simp] theorem State.enterPart_ports (p : PartState) (n : Nat) : (s.enterPart p n).ports = s.ports := rfl
@[simp] theorem State.enterPart_miso (p : PartState) (n : Nat) : (s.enterPart p n).miso = s.miso := rfl
@[simp] theorem State.enterPart_plan (p : PartState) (n : Nat) : (s.enterPart p n).plan = s.plan := rfl
@[simp] theorem State.enterPart_resetLow (p : PartState) (n : Nat) : (s.enterPart p n).resetLow = s.resetLow := rfl
@[simp] theorem State.enterPart_changes (p : PartState) (n : Nat) : (s.enterPart p n).changes = s.changes := rfl
@[simp] theorem State.enterPart_pending (p : PartState) (n : Nat) : (s.enterPart p n).pending = s.pending := rfl
@[simp] theorem State.enterPart_slot (p : PartState) (n : Nat) (j : SlotNo) : (s.enterPart p n).slot j = s.slot j := rfl
@[simp] theorem State.enterPart_watch (p : PartState) (n : Nat) (j : WatchId) : (s.enterPart p n).watch j = s.watch j := rfl
@[simp] theorem State.enterPart_ctrl (p : PartState) (n : Nat) (j : Dom) : (s.enterPart p n).ctrl j = s.ctrl j := rfl
@[simp] theorem State.enterPart_client (p : PartState) (n : Nat) (j : Client) : (s.enterPart p n).client j = s.client j := rfl
@[simp] theorem State.enterPart_queue (p : PartState) (n : Nat) (j : Client) : (s.enterPart p n).queue j = s.queue j := rfl
@[simp] theorem State.enterPart_port (p : PartState) (n : Nat) (j : Client) : (s.enterPart p n).port j = s.port j := rfl

@[simp] theorem State.passTurn_slots (p : Client) : (s.passTurn p).slots = s.slots := rfl
@[simp] theorem State.passTurn_counter (p : Client) : (s.passTurn p).counter = s.counter := rfl
@[simp] theorem State.passTurn_termClaims (p : Client) : (s.passTurn p).termClaims = s.termClaims := rfl
@[simp] theorem State.passTurn_windowClaims (p : Client) : (s.passTurn p).windowClaims = s.windowClaims := rfl
@[simp] theorem State.passTurn_adoption (p : Client) : (s.passTurn p).adoption = s.adoption := rfl
@[simp] theorem State.passTurn_adoptionMark (p : Client) : (s.passTurn p).adoptionMark = s.adoptionMark := rfl
@[simp] theorem State.passTurn_watches (p : Client) : (s.passTurn p).watches = s.watches := rfl
@[simp] theorem State.passTurn_wake (p : Client) : (s.passTurn p).wake = s.wake := rfl
@[simp] theorem State.passTurn_rest (p : Client) : (s.passTurn p).rest = s.rest := rfl
@[simp] theorem State.passTurn_ctrls (p : Client) : (s.passTurn p).ctrls = s.ctrls := rfl
@[simp] theorem State.passTurn_clients (p : Client) : (s.passTurn p).clients = s.clients := rfl
@[simp] theorem State.passTurn_supervisor (p : Client) : (s.passTurn p).supervisor = s.supervisor := rfl
@[simp] theorem State.passTurn_queues (p : Client) : (s.passTurn p).queues = s.queues := rfl
@[simp] theorem State.passTurn_ports (p : Client) : (s.passTurn p).ports = s.ports := rfl
@[simp] theorem State.passTurn_miso (p : Client) : (s.passTurn p).miso = s.miso := rfl
@[simp] theorem State.passTurn_plan (p : Client) : (s.passTurn p).plan = s.plan := rfl
@[simp] theorem State.passTurn_resetLow (p : Client) : (s.passTurn p).resetLow = s.resetLow := rfl
@[simp] theorem State.passTurn_changes (p : Client) : (s.passTurn p).changes = s.changes := rfl
@[simp] theorem State.passTurn_pending (p : Client) : (s.passTurn p).pending = s.pending := rfl
@[simp] theorem State.passTurn_slot (p : Client) (j : SlotNo) : (s.passTurn p).slot j = s.slot j := rfl
@[simp] theorem State.passTurn_watch (p : Client) (j : WatchId) : (s.passTurn p).watch j = s.watch j := rfl
@[simp] theorem State.passTurn_ctrl (p : Client) (j : Dom) : (s.passTurn p).ctrl j = s.ctrl j := rfl
@[simp] theorem State.passTurn_client (p : Client) (j : Client) : (s.passTurn p).client j = s.client j := rfl
@[simp] theorem State.passTurn_queue (p : Client) (j : Client) : (s.passTurn p).queue j = s.queue j := rfl
@[simp] theorem State.passTurn_port (p : Client) (j : Client) : (s.passTurn p).port j = s.port j := rfl

@[simp] theorem State.begin_changes : s.begin.changes = [] := rfl
@[simp] theorem State.emit_changes (p : PinChange) : (s.emit p).changes = s.changes ++ [p] := rfl
@[simp] theorem State.passTurn_turn (p : Client) : (s.passTurn p).turn = p + 1 := rfl
@[simp] theorem State.enterPart_rest (p : PartState) (n : Nat) :
    (s.enterPart p n).rest = { s.rest with part := p, timer := n } := rfl

end Sys2Proof.Machine
end

