-- ==== Sys2Proof/Laws/Frames.lean ====
section
/-! SUPPORT. What the shared operations leave alone: for each kind of operation the fields it can change, and one
lemma per operation that says it changes no other. A field is read off such a lemma by `congrArg`. -/

namespace Sys2Proof.Machine

/-- Only the notice queues and the record of output changes differ. -/
def OnlyNotices (s t : State) : Prop := t = { s with queues := t.queues, changes := t.changes }

/-- Only controllers, client records, queues and the record of output changes differ. -/
def OnlyDomains (s t : State) : Prop :=
  t = { s with ctrls := t.ctrls, clients := t.clients, queues := t.queues, changes := t.changes }

/-- Only the slots and the watches differ. -/
def OnlyTable (s t : State) : Prop := t = { s with slots := t.slots, watches := t.watches }

/-- Only what a teardown or a restart of a client reaches differs. -/
def OnlyClients (s t : State) : Prop :=
  t = { s with
    slots := t.slots, watches := t.watches, clients := t.clients, queues := t.queues, ports := t.ports
    changes := t.changes }

theorem OnlyNotices.refl (s : State) : OnlyNotices s s := rfl
theorem OnlyDomains.refl (s : State) : OnlyDomains s s := rfl
theorem OnlyTable.refl (s : State) : OnlyTable s s := rfl
theorem OnlyClients.refl (s : State) : OnlyClients s s := rfl

theorem OnlyNotices.trans {s t u : State} (h : OnlyNotices s t) (k : OnlyNotices t u) : OnlyNotices s u := by
  cases s; cases t; cases u; simp_all [OnlyNotices]
theorem OnlyDomains.trans {s t u : State} (h : OnlyDomains s t) (k : OnlyDomains t u) : OnlyDomains s u := by
  cases s; cases t; cases u; simp_all [OnlyDomains]
theorem OnlyTable.trans {s t u : State} (h : OnlyTable s t) (k : OnlyTable t u) : OnlyTable s u := by
  cases s; cases t; cases u; simp_all [OnlyTable]
theorem OnlyClients.trans {s t u : State} (h : OnlyClients s t) (k : OnlyClients t u) : OnlyClients s u := by
  cases s; cases t; cases u; simp_all [OnlyClients]

theorem OnlyNotices.domains {s t : State} (h : OnlyNotices s t) : OnlyDomains s t := by
  cases s; cases t; simp_all [OnlyNotices, OnlyDomains]
theorem OnlyNotices.clients {s t : State} (h : OnlyNotices s t) : OnlyClients s t := by
  cases s; cases t; simp_all [OnlyNotices, OnlyClients]
theorem OnlyTable.clients {s t : State} (h : OnlyTable s t) : OnlyClients s t := by
  cases s; cases t; simp_all [OnlyTable, OnlyClients]

/-- A relation that every element's step keeps is kept by the whole fold. -/
theorem foldl_keeps {α : Type} (R : State → State → Prop) (refl : ∀ s, R s s)
    (trans : ∀ {s t u}, R s t → R t u → R s u) (f : State → α → State) (h : ∀ s x, R s (f s x)) (xs : List α)
    (s : State) : R s (xs.foldl f s) := by
  induction xs generalizing s with
  | nil => exact refl s
  | cons x xs ih => exact trans (h s x) (ih (f s x))

/-! ## Notices -/

theorem State.putQueue_frame (c : Client) (es : List Entry) (o : Bool) (s : State) :
    OnlyNotices s (s.putQueue c es o) := by
  unfold State.putQueue; dsimp only; split <;> rfl

theorem State.notify_frame (c : Client) (k : NoticeKind) (sub : Subject) (det : Detail) (s : State) :
    OnlyNotices s (s.notify c k sub det) := by
  unfold State.notify; dsimp only; split
  · exact s.putQueue_frame ..
  · split <;> exact s.putQueue_frame ..

theorem State.notifyOwner_frame (o : Owner) (k : NoticeKind) (sub : Subject) (det : Detail) (s : State) :
    OnlyNotices s (s.notifyOwner o k sub det) := by
  cases o
  · exact s.notify_frame ..
  · rfl

/-! ## The table -/

theorem State.rearm_frame (w : WatchId) (s : State) : OnlyTable s (s.rearm w) := by
  unfold State.rearm; split <;> rfl

theorem State.retire_frame (i : SlotNo) (s : State) : OnlyTable s (s.retire i) := by
  unfold State.retire
  split
  · rfl
  · split
    · rfl
    · exact OnlyTable.trans (t := s.setSlot _ _) rfl (State.rearm_frame ..)

theorem State.makeRoom_frame (s : State) :
    s.makeRoom = { s with slots := s.makeRoom.slots, counter := s.makeRoom.counter } := by
  unfold State.makeRoom; split <;> rfl

theorem State.create_frame (i : SlotNo) (o : Owner) (t : Template) (b : Option WatchId) (s : State) :
    s.create i o t b = { s with slots := (s.create i o t b).slots, counter := (s.create i o t b).counter } := by
  unfold State.create State.makeRoom; split <;> rfl

/-! ## Clients -/

theorem State.driveCrst_frame (c : Client) (v : Bool) (s : State) : OnlyDomains s (s.driveCrst c v) := by
  unfold State.driveCrst; split <;> rfl

theorem State.driveCrst_clients (c : Client) (v : Bool) (s : State) : OnlyClients s (s.driveCrst c v) := by
  unfold State.driveCrst; split <;> rfl

theorem State.endOffer_frame (c : Client) (s : State) (x : SlotNo × Lease) : OnlyClients s (s.endOffer c x) :=
  OnlyClients.trans (t := s.putLease x.1 { x.2 with offer := none }) rfl (State.notifyOwner_frame ..).clients

theorem State.endOffersTo_frame (c : Client) (s : State) : OnlyClients s (s.endOffersTo c) :=
  foldl_keeps _ OnlyClients.refl OnlyClients.trans _ (State.endOffer_frame c) _ _

theorem State.setClient_frame (c : Client) (r : ClientRec) (s : State) : OnlyClients s (s.setClient c r) := rfl
theorem State.addCause_frame (c : Client) (f : CauseFlags → CauseFlags) (s : State) :
    OnlyClients s (s.addCause c f) := rfl
theorem State.clearPort_frame (c : Client) (s : State) : OnlyClients s (s.clearPort c) := rfl
theorem State.clearQueue_frame (c : Client) (s : State) : OnlyClients s (s.clearQueue c) :=
  (State.putQueue_frame ..).clients

theorem State.homeLost_frame (c : Client) (s : State) : OnlyClients s (s.homeLost c) :=
  (((s.addCause_frame c _).trans (State.clearPort_frame ..)).trans (State.clearQueue_frame ..)).trans
    (State.endOffersTo_frame ..)

theorem State.restart_frame (c : Client) (f : CauseFlags → CauseFlags) (s : State) :
    OnlyClients s (s.restart c f) := by
  refine OnlyClients.trans ?_ (State.driveCrst_clients ..)
  refine OnlyClients.trans ?_ (State.setClient_frame ..)
  refine OnlyClients.trans ?_ (State.clearQueue_frame ..)
  refine OnlyClients.trans ?_ (State.clearPort_frame ..)
  refine OnlyClients.trans ?_ (State.endOffersTo_frame ..)
  refine OnlyClients.trans (s.addCause_frame c f) ?_
  exact foldl_keeps _ OnlyClients.refl OnlyClients.trans (fun t (x : SlotNo × Lease) => State.retire x.1 t)
    (fun t x => (t.retire_frame x.1).clients) _ _

/-! ## Controllers -/

theorem State.drive_frame (d : Dom) (p : Pins) (e : PinChange) (s : State) : OnlyDomains s (s.drive d p e) := by
  unfold State.drive; split <;> rfl

theorem State.driveIso_frame (d : Dom) (v : Bool) (s : State) : OnlyDomains s (s.driveIso d v) := s.drive_frame ..
theorem State.drivePen_frame (d : Dom) (v : Bool) (s : State) : OnlyDomains s (s.drivePen d v) := s.drive_frame ..
theorem State.driveDrst_frame (d : Dom) (v : Bool) (s : State) : OnlyDomains s (s.driveDrst d v) :=
  s.drive_frame ..
theorem State.driveDclk_frame (d : Dom) (v : Dclk) (s : State) : OnlyDomains s (s.driveDclk d v) :=
  s.drive_frame ..
theorem State.modCtrl_frame (d : Dom) (f : Ctrl → Ctrl) (s : State) : OnlyDomains s (s.modCtrl d f) := rfl
theorem State.enter_frame (d : Dom) (st : DomState) (n : Nat) (s : State) : OnlyDomains s (s.enter d st n) := rfl
theorem State.setCold_frame (d : Dom) (v : Bool) (s : State) : OnlyDomains s (s.setCold d v) := rfl

theorem State.syncHome_frame (d : Dom) (s : State) : OnlyDomains s (s.syncHome d) := by
  unfold State.syncHome; split
  · exact State.driveCrst_frame ..
  · rfl

theorem State.recomputeParent_frame (d : Dom) (s : State) : OnlyDomains s (s.recomputeParent d) := by
  unfold State.recomputeParent; split <;> rfl

theorem State.recount_frame (d : Dom) (s : State) : OnlyDomains s (s.recount d) := rfl

theorem State.tellChildren_frame (d : Dom) (before : Reach) (s : State) :
    OnlyDomains s (s.tellChildren d before) :=
  foldl_keeps _ OnlyDomains.refl OnlyDomains.trans _
    (fun t c => by unfold State.tellChild; split <;> rfl) _ _

theorem State.handNeighbours_frame (d : Dom) (before : Reach) (s : State) :
    OnlyDomains s (s.handNeighbours d before) :=
  (((State.tellChildren_frame ..).trans (State.recount_frame ..)).trans (State.recomputeParent_frame ..)).trans
    (State.syncHome_frame ..)

theorem State.toDischarge_frame (d : Dom) (s : State) : OnlyDomains s (s.toDischarge d) :=
  (((s.enter_frame d _ _).trans (State.setCold_frame ..)).trans (State.driveDrst_frame ..)).trans
    (State.drivePen_frame ..)

theorem State.toLingerHold_frame (d : Dom) (s : State) : OnlyDomains s (s.toLingerHold d) := by
  unfold State.toLingerHold; dsimp only; split
  · exact (State.enter_frame ..).trans (State.toDischarge_frame ..)
  · exact State.enter_frame ..

theorem State.tellUngranted_frame (d : Dom) (before : Reach) (s : State) :
    OnlyDomains s (s.tellUngranted d before) :=
  foldl_keeps _ OnlyDomains.refl OnlyDomains.trans _ (fun _ _ => (State.notifyOwner_frame ..).domains) _ _

theorem State.stopOne_frame (d : Dom) (s : State) : OnlyDomains s (s.stopOne d) := by
  unfold State.stopOne
  dsimp only
  refine OnlyDomains.trans ?_ (State.handNeighbours_frame ..)
  have h : OnlyDomains s ((((s.driveIso d true).driveDclk d .stopped).enter d .held 0).tellUngranted d
      (effLevel (s.ctrl d).state)) :=
    (((s.driveIso_frame d true).trans (State.driveDclk_frame ..)).trans (State.enter_frame ..)).trans
      (State.tellUngranted_frame ..)
  split
  · exact h.trans (State.toLingerHold_frame ..)
  · exact h

theorem State.stopChildren_frame (n : Nat) (d : Dom) (s : State) : OnlyDomains s (s.stopChildren n d) := by
  induction n generalizing d s with
  | zero => rfl
  | succ n ih =>
    exact foldl_keeps _ OnlyDomains.refl OnlyDomains.trans _
      (fun t c => by split; exact (t.stopOne_frame c).trans (ih c _); rfl) _ _

theorem State.raiseHomeLost_frame (d : Dom) (s : State) : OnlyDomains s (s.raiseHomeLost d) := by
  unfold State.raiseHomeLost; split <;> rfl

theorem State.tellFault_frame (d : Dom) (cause : FaultCause) (s : State) : OnlyDomains s (s.tellFault d cause) :=
  (State.notify_frame ..).domains.trans
    (foldl_keeps _ OnlyDomains.refl OnlyDomains.trans _ (fun _ _ => (State.notifyOwner_frame ..).domains) _ _)

theorem State.dropOutputs_frame (d : Dom) (s : State) : OnlyDomains s (s.dropOutputs d) :=
  (((s.driveIso_frame d true).trans (State.driveDclk_frame ..)).trans (State.driveDrst_frame ..)).trans
    (State.drivePen_frame ..)

theorem State.toFault_frame (d : Dom) (cause : FaultCause) (s : State) : OnlyDomains s (s.toFault d cause) := by
  unfold State.toFault
  dsimp only
  refine OnlyDomains.trans ?_ (State.raiseHomeLost_frame ..)
  refine OnlyDomains.trans ?_ (State.stopChildren_frame ..)
  refine OnlyDomains.trans ?_ (State.tellFault_frame ..)
  exact (s.dropOutputs_frame d).trans (State.modCtrl_frame ..)

theorem State.completeStart_frame (d : Dom) (run : Run) (s : State) : OnlyDomains s (s.completeStart d run) := by
  unfold State.completeStart; split
  · exact State.toFault_frame ..
  · exact (((s.driveDrst_frame d false).trans (State.setCold_frame ..)).trans (State.driveIso_frame ..)).trans
      (State.enter_frame ..)

theorem State.toStarting_frame (d : Dom) (run : Run) (s : State) : OnlyDomains s (s.toStarting d run) := by
  unfold State.toStarting
  dsimp only
  split
  · exact ((State.driveDclk_frame ..).trans (State.enter_frame ..)).trans (State.completeStart_frame ..)
  · exact (State.driveDclk_frame ..).trans (State.enter_frame ..)

theorem State.heldCompare_frame (d : Dom) (s : State) : OnlyDomains s (s.heldCompare d) := by
  unfold State.heldCompare
  split
  · exact State.toLingerHold_frame ..
  · rfl
  · split
    · exact State.toStarting_frame ..
    · rfl
  · split
    · exact State.toStarting_frame ..
    · rfl

theorem State.toHeld_frame (d : Dom) (s : State) : OnlyDomains s (s.toHeld d) :=
  (State.enter_frame ..).trans (State.heldCompare_frame ..)

theorem State.tellGranted_frame (d : Dom) (before : Reach) (s : State) :
    OnlyDomains s (s.tellGranted d before) := by
  unfold State.tellGranted
  split
  · rfl
  · exact foldl_keeps _ OnlyDomains.refl OnlyDomains.trans _ (fun _ _ => (State.notifyOwner_frame ..).domains) _ _

theorem State.endPowering_frame (d : Dom) (s : State) : OnlyDomains s (s.endPowering d) := by
  unfold State.endPowering
  dsimp only
  split
  · exact ((State.enter_frame ..).trans (State.tellGranted_frame ..)).trans (State.heldCompare_frame ..)
  · exact (State.enter_frame ..).trans (State.heldCompare_frame ..)

theorem State.toPowering_frame (d : Dom) (s : State) : OnlyDomains s (s.toPowering d) := by
  unfold State.toPowering
  dsimp only
  have h : OnlyDomains s (((s.drivePen d true).enter d .powering ((s.drivePen d true).ctrl d).setup.ramp).setCold
      d true) := ((State.drivePen_frame ..).trans (State.enter_frame ..)).trans (State.setCold_frame ..)
  split
  · exact h.trans (State.endPowering_frame ..)
  · exact h

theorem State.toOff_frame (d : Dom) (s : State) : OnlyDomains s (s.toOff d) := by
  unfold State.toOff
  dsimp only
  have h : OnlyDomains s (((s.enter d .off 0).setCold d true).raiseHomeLost d) :=
    ((State.enter_frame ..).trans (State.setCold_frame ..)).trans (State.raiseHomeLost_frame ..)
  split
  · exact h
  · exact h.trans (State.toPowering_frame ..)

theorem State.leaveRunning_frame (d : Dom) (s : State) : OnlyDomains s (s.leaveRunning d) :=
  ((s.driveIso_frame d true).trans (State.driveDclk_frame ..)).trans (State.toHeld_frame ..)

theorem State.toRun_frame (d : Dom) (run : Run) (s : State) : OnlyDomains s (s.toRun d run) :=
  (State.enter_frame ..).trans (State.driveDclk_frame ..)

theorem State.leaveLinger_frame (d : Dom) (held : Level) (s : State) : OnlyDomains s (s.leaveLinger d held) := by
  unfold State.leaveLinger
  split
  · exact State.toDischarge_frame ..
  · exact State.toHeld_frame ..
  · exact State.toRun_frame ..
  · exact State.toRun_frame ..
  · exact State.leaveRunning_frame ..
  · exact State.leaveRunning_frame ..

theorem State.toLingerRun_frame (d : Dom) (run : Run) (s : State) : OnlyDomains s (s.toLingerRun d run) := by
  unfold State.toLingerRun
  dsimp only
  split
  · exact (State.enter_frame ..).trans (State.leaveLinger_frame ..)
  · exact State.enter_frame ..

theorem State.demandStep_frame (d : Dom) (s : State) : OnlyDomains s (s.demandStep d) := by
  unfold State.demandStep
  split
  · rfl
  · exact State.toPowering_frame ..
  · rfl
  · exact State.heldCompare_frame ..
  · exact (State.modCtrl_frame ..).trans (State.driveDclk_frame ..)
  · exact (State.modCtrl_frame ..).trans (State.driveDclk_frame ..)
  · exact (State.driveDclk_frame ..).trans (State.toHeld_frame ..)
  · exact State.toRun_frame ..
  · rfl
  · exact State.toLingerRun_frame ..
  · rfl
  · exact State.toLingerRun_frame ..
  · split
    · exact State.leaveLinger_frame ..
    · rfl
  · rfl
  · rfl

/-- A controller event reaches controllers, client records and queues, and nothing else. -/
theorem State.event_frame (d : Dom) (passage : State → State) (h : ∀ s, OnlyDomains s (passage s)) (s : State) :
    OnlyDomains s (s.event d passage) := by
  unfold State.event
  dsimp only
  split
  · exact (h s).trans (State.handNeighbours_frame ..)
  · exact ((h s).trans (State.tellGranted_frame ..)).trans (State.handNeighbours_frame ..)

/-! ## The end of a step -/

/-- The hand-over at the end of a take changes controllers only. -/
theorem State.handOn_frame (s : State) : s.handOn = { s with ctrls := s.handOn.ctrls } := by
  have R : ∀ (f : State → Dom → State) (_ : ∀ t x, f t x = { t with ctrls := (f t x).ctrls })
      (xs : List Dom) (t : State), xs.foldl f t = { t with ctrls := (xs.foldl f t).ctrls } := by
    intro f h xs t
    refine foldl_keeps (fun a b => b = { a with ctrls := b.ctrls }) (fun _ => rfl) ?_ f h xs t
    intro a b c hab hbc
    cases a; cases b; cases c; simp_all
  unfold State.handOn
  dsimp only
  generalize (List.finRange 8).filter (fun d => decide (s.tableDemand d ≠ (s.ctrl d).leaseDemand)) = ds
  have h₁ := R State.handLease (fun _ _ => rfl) ds s
  generalize ds.foldl State.handLease s = t at *
  have h₂ := R (fun t d => t.recount d) (fun _ _ => rfl) ds t
  generalize ds.foldl (fun t d => t.recount d) t = u at *
  have h₃ := R (fun t d => t.recomputeParent d) (fun t d => by unfold State.recomputeParent; split <;> rfl) ds u
  generalize ds.foldl (fun t d => t.recomputeParent d) u = v at *
  cases s; cases t; cases u; cases v; simp_all

/-- The judgement of Rest Control changes Rest Control only. -/
theorem State.judgeRest_frame (s : State) : s.judgeRest = { s with rest := s.judgeRest.rest } := by
  unfold State.judgeRest
  split
  · rfl
  · split <;> (try split) <;> rfl

/-- The judgement of Rest Control leaves the tick divider and what its period owes. -/
theorem State.judgeRest_counts (s : State) :
    s.judgeRest.rest.divider = s.rest.divider ∧ s.judgeRest.rest.due = s.rest.due := by
  unfold State.judgeRest
  split
  · exact ⟨rfl, rfl⟩
  · split <;> (try split) <;> exact ⟨rfl, rfl⟩

end Sys2Proof.Machine
end

