-- ==== Sys2Proof/Laws/Engine.lean ====
section
/-! SUPPORT. What a step is made of: an event that can or cannot happen, a claim the engine takes, a port request
taken, the checks of a request, and the hand-over at the end of a take. -/

namespace Sys2Proof.Machine

variable {s t : State}

/-! ## Events and claims -/

theorem State.occur_of {can : Bool} (h : can = true) (e : State → State) (s : State) :
    s.occur can e = .next (e s.begin).judgeRest := by simp [State.occur, h]

theorem State.occur_not {can : Bool} (h : can = false) (e : State → State) (s : State) :
    s.occur can e = .next s := by simp [State.occur, h]

/-- An event answers a next state: itself judged, or the state as it was. -/
theorem State.occur_next (can : Bool) (e : State → State) (s : State) :
    ∃ t, s.occur can e = .next t ∧ (t = (e s.begin).judgeRest ∨ t = s) := by
  cases can
  · exact ⟨s, rfl, .inr rfl⟩
  · exact ⟨_, rfl, .inl rfl⟩

theorem State.claim_of {can : Bool} (hr : s.running = true) (h : can = true) (take : State → State) :
    State.claim can take s = Host.Outcome.next (take s.begin).handOn.judgeRest := by simp [State.claim, State.occur, hr, h]

theorem State.claim_not {can : Bool} (h : s.running = false ∨ can = false) (take : State → State) :
    State.claim can take s = Host.Outcome.next s := by rcases h with h | h <;> simp [State.claim, State.occur, h]

/-- A request of the command's kind is taken. -/
theorem State.take_of {kind : ReqKind} {p : Client} {r : Request} (hr : s.running = true)
    (hn : s.nextRequest = some (p, r)) (hk : r.kind = kind) (rule : Client → List Byte → State → Reply) :
    s.take kind rule = .next (State.serve rule p r s.begin).handOn.judgeRest := by
  simp [State.take, hn, State.claim_of hr, hk]

/-- A command of another kind than the request whose turn it is does nothing. -/
theorem State.take_other {kind : ReqKind} {p : Client} {r : Request} (hn : s.nextRequest = some (p, r))
    (hk : r.kind ≠ kind) (rule : Client → List Byte → State → Reply) : s.take kind rule = .next s := by
  simp [State.take, hn, State.claim_not (.inr (decide_eq_false hk))]

/-- A take answers a next state. -/
theorem State.take_next (kind : ReqKind) (rule : Client → List Byte → State → Reply) (s : State) :
    ∃ t, s.take kind rule = .next t := by
  unfold State.take
  split
  · exact ⟨_, (State.occur_next ..).choose_spec.1⟩
  · exact ⟨_, rfl⟩

/-! ## The port turn (R20) -/

@[simp] theorem State.heldAt_held {s : State} {c : Client} {r : Request} (h : (s.port c).state = .held r) :
    s.heldAt c = some r := by simp [State.heldAt, h]

theorem State.heldAt_iff {s : State} {c : Client} {r : Request} :
    s.heldAt c = some r ↔ (s.port c).state = .held r := by
  unfold State.heldAt; split <;> simp_all

theorem State.heldAt_none {s : State} {c : Client} : s.heldAt c = none ↔ ∀ r, (s.port c).state ≠ .held r := by
  unfold State.heldAt; split <;> simp_all

/-- The request whose turn it is stands in its port. -/
theorem State.nextRequest_held {s : State} {p : Client} {r : Request} (h : s.nextRequest = some (p, r)) :
    (s.port p).state = .held r := by
  obtain ⟨c, -, hc⟩ := List.exists_of_findSome?_eq_some h
  cases hq : s.heldAt c <;> simp [hq] at hc
  obtain ⟨rfl, rfl⟩ := hc
  exact State.heldAt_iff.1 hq

/-- The first port that holds a request, counting upward from the pointer, has the turn. -/
theorem State.nextRequest_first {s : State} {n : Fin 4} {r : Request} (h : (s.port (s.turn + n)).state = .held r)
    (before : ∀ m : Fin 4, m < n → ∀ q, (s.port (s.turn + m)).state ≠ .held q) :
    s.nextRequest = some (s.turn + n, r) := by
  have hn := State.heldAt_held h
  have hb : ∀ m : Fin 4, m < n → s.heldAt (s.turn + m) = none := fun m hm => State.heldAt_none.2 (before m hm)
  have h0 := hb 0; have h1 := hb 1; have h2 := hb 2
  unfold State.nextRequest
  fin_cases n
  · simp_all
  · simp_all
  · have a0 : s.heldAt s.turn = none := by simpa using h0 (by decide)
    have a1 := h1 (by decide)
    simp_all
  · have a0 : s.heldAt s.turn = none := by simpa using h0 (by decide)
    have a1 := h1 (by decide)
    have a2 := h2 (by decide)
    simp_all

@[simp] theorem State.begin_nextRequest (s : State) : s.begin.nextRequest = s.nextRequest := rfl
@[simp] theorem State.begin_running (s : State) : s.begin.running = s.running := rfl

/-! ## The answer (R174, R176) -/

/-- The port record after a take. -/
theorem State.serve_port (rule : Client → List Byte → State → Reply) (p : Client) (r : Request) (s : State) :
    (State.serve rule p r s).port p
      = { state := .ready ((rule p r.body s).answer p r), saved := some ((rule p r.body s).answer p r)
          memory := some r.seq, priorDiscarded := false, busyDrop := false, torn := false } := by
  simp [State.serve, State.storeAnswer, State.port, State.setPort, State.passTurn, Port.flagsCleared]

theorem State.serve_port_ne (rule : Client → List Byte → State → Reply) {p c : Client} (r : Request) (s : State)
    (h : c ≠ p) : (State.serve rule p r s).port c = ((rule p r.body s).state).port c := by
  simp [State.serve, State.storeAnswer, State.port, State.setPort, State.passTurn, Vec.get_set_ne _ _ h]

/-- A take changes nothing but what its rule changes, its port and the turn. -/
theorem State.serve_frame (rule : Client → List Byte → State → Reply) (p : Client) (r : Request) (s : State) :
    State.serve rule p r s
      = { (rule p r.body s).state with ports := (State.serve rule p r s).ports, turn := p + 1 } := rfl

/-! ## The checks -/

@[simp] theorem withForm_none {α : Type} (s : State) (k : α → Reply) :
    withForm none s k = refuse .badArgument s := rfl
@[simp] theorem withForm_some {α : Type} (a : α) (s : State) (k : α → Reply) : withForm (some a) s k = k a := rfl

theorem State.named_iff {s : State} {h : Handle} {l : Lease} :
    s.named h = some l ↔ s.slot h.slot = { gen := h.gen, cond := .lease l } := by
  unfold State.named State.leaseAt
  cases e : s.slot h.slot with
  | mk g c => cases c <;> by_cases hg : g = h.gen <;> simp [hg]

theorem State.named_slot {s : State} {h : Handle} {l : Lease}
    (e : s.slot h.slot = { gen := h.gen, cond := .lease l }) : s.named h = some l := State.named_iff.2 e

theorem State.leaseAt_iff {s : State} {i : SlotNo} {l : Lease} :
    s.leaseAt i = some l ↔ (s.slot i).cond = .lease l := by
  unfold State.leaseAt; split <;> simp_all

theorem withLease_of {h : Handle} {s : State} {l : Lease} (e : s.named h = some l) (k : Lease → Reply) :
    withLease h s k = k l := by simp [withLease, e]

theorem withLease_stale {h : Handle} {s : State} (e : s.named h = none) (k : Lease → Reply) :
    withLease h s k = refuse .stale s := by simp [withLease, e]

theorem withOwned_of {c : Client} {h : Handle} {s : State} {l : Lease} (e : s.named h = some l)
    (o : l.owner = .client c) (k : Lease → Reply) : withOwned c h s k = k l := by
  simp [withOwned, withLease_of e, o]

theorem withOwned_other {c : Client} {h : Handle} {s : State} {l : Lease} (e : s.named h = some l)
    (o : l.owner ≠ .client c) (k : Lease → Reply) : withOwned c h s k = refuse .notOwner s := by
  simp [withOwned, withLease_of e, o]

theorem withRole_of {c : Client} {s : State} (e : s.supervisor = c) (k : Reply) : withRole c s k = k := by
  simp [withRole, e]

theorem withRole_other {c : Client} {s : State} (e : s.supervisor ≠ c) (k : Reply) :
    withRole c s k = refuse .notSupervisor s := by simp [withRole, e]

theorem withQuota_of {c : Client} {s : State} (e : s.charge c < (s.client c).quota) (k : Reply) :
    withQuota c s k = k := by simp [withQuota, e]

theorem withQuota_full {c : Client} {s : State} (e : (s.client c).quota ≤ s.charge c) (k : Reply) :
    withQuota c s k = refuse .quota s := by simp [withQuota, Nat.not_lt.2 e]

/-- The lowest-numbered FREE slot (R3). -/
theorem State.freeSlot_iff {s : State} {i : SlotNo} :
    s.freeSlot = some i ↔ (s.slot i).cond = .free ∧ ∀ j, j < i → (s.slot j).cond ≠ .free := by
  unfold State.freeSlot
  rw [List.find?_eq_some_iff_getElem]
  constructor
  · rintro ⟨hi, n, hn, e, before⟩
    simp at e hn
    refine ⟨by simpa using hi, fun j hj => ?_⟩
    subst e
    simpa using before j.1 (Fin.lt_def.1 hj)
  · rintro ⟨hi, before⟩
    refine ⟨by simpa using hi, i.1, by simp, by simp, fun j hj => ?_⟩
    simpa using before ⟨j, by omega⟩ (by simpa [Fin.lt_def] using hj)

theorem State.freeSlot_none {s : State} : s.freeSlot = none ↔ ∀ i, (s.slot i).cond ≠ .free := by
  simp [State.freeSlot]

/-- The lowest watch id that no watch holds (R125). -/
theorem State.freeWatch_iff {s : State} {w : WatchId} :
    s.freeWatch = some w ↔ s.watch w = none ∧ ∀ v, v < w → s.watch v ≠ none := by
  unfold State.freeWatch
  rw [List.find?_eq_some_iff_getElem]
  constructor
  · rintro ⟨hi, n, hn, e, before⟩
    simp at e hn
    refine ⟨by simpa using hi, fun j hj => ?_⟩
    subst e
    simpa [Option.isSome_iff_ne_none] using before j.1 (Fin.lt_def.1 hj)
  · rintro ⟨hi, before⟩
    refine ⟨by simpa using hi, w.1, by simp, by simp, fun j hj => ?_⟩
    simpa [Option.isSome_iff_ne_none] using before ⟨j, by omega⟩ (by simpa [Fin.lt_def] using hj)

theorem State.freeWatch_none {s : State} : s.freeWatch = none ↔ ∀ w, s.watch w ≠ none := by
  simp [State.freeWatch]

/-! ## The table read as a list -/

theorem State.mem_leasesBySlot {s : State} {x : SlotNo × Lease} : x ∈ s.leasesBySlot ↔ s.leaseAt x.1 = some x.2 := by
  simp only [State.leasesBySlot, List.mem_filterMap, List.mem_finRange, true_and, Option.map_eq_some_iff]
  constructor
  · rintro ⟨i, l, h, rfl⟩; exact h
  · intro h; exact ⟨x.1, x.2, h, rfl⟩

theorem mem_insertByCreation {x y : SlotNo × Lease} {ys : List (SlotNo × Lease)} :
    x ∈ insertByCreation y ys ↔ x = y ∨ x ∈ ys := by
  induction ys with
  | nil => simp [insertByCreation]
  | cons z zs ih =>
    unfold insertByCreation
    split
    · simp
    · simp only [List.mem_cons, ih]; tauto

/-- The listing order names the leases of the table and no others (R11). -/
theorem State.mem_leases {s : State} {x : SlotNo × Lease} : x ∈ s.leases ↔ s.leaseAt x.1 = some x.2 := by
  rw [← State.mem_leasesBySlot]
  unfold State.leases
  induction s.leasesBySlot with
  | nil => simp
  | cons y ys ih => simp [mem_insertByCreation, ih]

theorem insertByCreation_sorted {y : SlotNo × Lease} {ys : List (SlotNo × Lease)}
    (h : ys.Pairwise (fun a b => a.2.creation ≤ b.2.creation)) :
    (insertByCreation y ys).Pairwise (fun a b => a.2.creation ≤ b.2.creation) := by
  induction ys with
  | nil => simp [insertByCreation]
  | cons z zs ih =>
    unfold insertByCreation
    rw [List.pairwise_cons] at h
    split
    · rename_i hle
      refine List.pairwise_cons.2 ⟨fun a ha => ?_, List.pairwise_cons.2 h⟩
      rcases List.mem_cons.1 ha with rfl | ha
      · exact hle
      · exact hle.trans (h.1 a ha)
    · rename_i hlt
      refine List.pairwise_cons.2 ⟨fun a ha => ?_, ih h.2⟩
      rcases mem_insertByCreation.1 ha with rfl | ha
      · omega
      · exact h.1 a ha

/-- The listing order is ascending in creation number (R11). -/
theorem State.leases_sorted (s : State) : s.leases.Pairwise (fun a b => a.2.creation ≤ b.2.creation) := by
  unfold State.leases
  induction s.leasesBySlot with
  | nil => simp
  | cons y ys ih => exact insertByCreation_sorted ih

theorem insertByCreation_perm (y : SlotNo × Lease) (ys : List (SlotNo × Lease)) :
    (insertByCreation y ys).Perm (y :: ys) := by
  induction ys with
  | nil => exact List.Perm.refl _
  | cons z zs ih =>
    unfold insertByCreation
    split
    · exact List.Perm.refl _
    · exact (ih.cons z).trans (List.Perm.swap y z zs)

theorem State.leases_perm (s : State) : s.leases.Perm s.leasesBySlot := by
  unfold State.leases
  induction s.leasesBySlot with
  | nil => exact List.Perm.refl _
  | cons y ys ih => exact (insertByCreation_perm y _).trans (ih.cons y)

theorem insertByCreation_head {x : SlotNo × Lease} {ys : List (SlotNo × Lease)}
    (h : ∀ y ∈ ys, x.2.creation ≤ y.2.creation) : insertByCreation x ys = x :: ys := by
  cases ys with
  | nil => rfl
  | cons y ys => simp [insertByCreation, h y (by simp)]

/-- A filter of a sorted list with a lease put in its place. -/
theorem filter_insertByCreation (p : SlotNo × Lease → Bool) {x : SlotNo × Lease} {ys : List (SlotNo × Lease)}
    (h : ys.Pairwise (fun a b => a.2.creation ≤ b.2.creation)) :
    (insertByCreation x ys).filter p
      = if p x = true then insertByCreation x (ys.filter p) else ys.filter p := by
  induction ys with
  | nil => simp [insertByCreation, List.filter_cons]
  | cons y ys ih =>
    rw [List.pairwise_cons] at h
    rw [show insertByCreation x (y :: ys)
      = if x.2.creation ≤ y.2.creation then x :: y :: ys else y :: insertByCreation x ys from rfl]
    split
    · rename_i hle
      have hx : ∀ z ∈ (y :: ys).filter p, x.2.creation ≤ z.2.creation := by
        intro z hz
        rcases List.mem_cons.1 (List.mem_filter.1 hz).1 with rfl | hz
        · exact hle
        · exact hle.trans (h.1 z hz)
      rw [List.filter_cons, insertByCreation_head hx]
    · rename_i hlt
      rw [List.filter_cons, ih h.2]
      by_cases hy : p y = true
      · by_cases hx : p x = true
        · simp [hx, hy, insertByCreation, hlt]
        · simp [hx, hy]
      · simp [hy]

/-- The listing order of a table with fewer leases is the listing order with the others left out. -/
theorem State.leases_of_filter {p : SlotNo × Lease → Bool} (h : t.leasesBySlot = s.leasesBySlot.filter p) :
    t.leases = s.leases.filter p := by
  have sorted : ∀ xs : List (SlotNo × Lease),
      (xs.foldr insertByCreation []).Pairwise (fun a b => a.2.creation ≤ b.2.creation) := by
    intro xs
    induction xs with
    | nil => simp
    | cons x xs ih => exact insertByCreation_sorted ih
  have key : ∀ xs : List (SlotNo × Lease),
      (xs.filter p).foldr insertByCreation [] = (xs.foldr insertByCreation []).filter p := by
    intro xs
    induction xs with
    | nil => rfl
    | cons x xs ih =>
      rw [List.foldr_cons, filter_insertByCreation p (sorted xs), ← ih, List.filter_cons]
      split <;> simp
  simp only [State.leases, h, key]

/-! ## Reading the table: only the slots count -/

theorem State.leaseAt_congr (h : t.slots = s.slots) (i : SlotNo) : t.leaseAt i = s.leaseAt i := by
  simp [State.leaseAt, State.slot, h]
theorem State.leasesBySlot_congr (h : t.slots = s.slots) : t.leasesBySlot = s.leasesBySlot := by
  simp only [State.leasesBySlot, State.leaseAt_congr h]
theorem State.leases_congr (h : t.slots = s.slots) : t.leases = s.leases := by
  simp only [State.leases, State.leasesBySlot_congr h]
theorem State.tableDemand_congr (h : t.slots = s.slots) (d : Dom) : t.tableDemand d = s.tableDemand d := by
  simp only [State.tableDemand, State.leasesBySlot_congr h]
theorem State.leaseCount_congr (h : t.slots = s.slots) (d : Dom) : t.leaseCount d = s.leaseCount d := by
  simp only [State.leaseCount, State.leasesBySlot_congr h]
theorem State.hasBoot_congr (h : t.slots = s.slots) : t.hasBoot = s.hasBoot := by
  simp only [State.hasBoot, State.leasesBySlot_congr h]
theorem State.hasLease_congr (h : t.slots = s.slots) : t.hasLease = s.hasLease := by
  simp only [State.hasLease, State.leaseAt_congr h]
theorem State.handleAt_congr (h : t.slots = s.slots) (i : SlotNo) : t.handleAt i = s.handleAt i := by
  simp [State.handleAt, State.slot, h]

/-! ## The hand-over (R18) -/

theorem State.handOn_slots (s : State) : s.handOn.slots = s.slots := by
  have h := congrArg State.slots s.handOn_frame
  simpa using h

theorem State.handOn_tableDemand (s : State) (d : Dom) : s.handOn.tableDemand d = s.tableDemand d :=
  State.tableDemand_congr s.handOn_slots d

/-- A take that moves no lease demand hands nothing on. -/
theorem State.handOn_same (h : ∀ d, (s.ctrl d).leaseDemand = s.tableDemand d) : s.handOn = s := by
  have : (List.finRange 8).filter (fun d => decide (s.tableDemand d ≠ (s.ctrl d).leaseDemand)) = [] := by
    simp [h]
  unfold State.handOn
  dsimp only
  rw [this]
  rfl

theorem State.modCtrl_ctrl (d e : Dom) (f : Ctrl → Ctrl) (s : State) :
    (s.modCtrl d f).ctrl e = if e = d then f (s.ctrl d) else s.ctrl e := by
  simp [State.modCtrl, State.setCtrl, State.ctrl, Vec.get_set]

theorem State.recomputeParent_leaseDemand (d e : Dom) (s : State) :
    ((s.recomputeParent d).ctrl e).leaseDemand = (s.ctrl e).leaseDemand := by
  unfold State.recomputeParent
  split
  · simp only [State.recompute, State.modCtrl_ctrl]; split
    · subst_vars; rfl
    · rfl
  · rfl

theorem State.handLease_tableDemand (d e : Dom) (s : State) : (s.handLease d).tableDemand e = s.tableDemand e :=
  State.tableDemand_congr rfl e

theorem State.handLeases_leaseDemand (ds : List Dom) (e : Dom) (s : State) :
    ((ds.foldl State.handLease s).ctrl e).leaseDemand
      = if e ∈ ds then s.tableDemand e else (s.ctrl e).leaseDemand := by
  induction ds generalizing s with
  | nil => simp
  | cons d ds ih =>
    rw [List.foldl_cons, ih, State.handLease_tableDemand]
    by_cases hm : e ∈ ds
    · simp [hm]
    · simp only [hm, if_false, List.mem_cons, or_false, State.handLease, State.modCtrl_ctrl]
      by_cases he : e = d
      · subst he; simp [Ctrl.hand]
      · simp [he]

theorem State.recomputeParents_leaseDemand (ds : List Dom) (e : Dom) (s : State) :
    ((ds.foldl (fun t d => t.recomputeParent d) s).ctrl e).leaseDemand = (s.ctrl e).leaseDemand := by
  induction ds generalizing s with
  | nil => rfl
  | cons d ds ih => rw [List.foldl_cons, ih, State.recomputeParent_leaseDemand]

theorem State.recounts_leaseDemand (ds : List Dom) (e : Dom) (s : State) :
    ((ds.foldl (fun t d => t.recount d) s).ctrl e).leaseDemand = (s.ctrl e).leaseDemand := by
  induction ds generalizing s with
  | nil => rfl
  | cons d ds ih =>
    rw [List.foldl_cons, ih, State.recount, State.modCtrl_ctrl]
    split
    · subst_vars; rfl
    · rfl

/-- After the hand-over every controller holds the lease demand of the table (R17, R18). -/
theorem State.handOn_leaseDemand (s : State) (d : Dom) : (s.handOn.ctrl d).leaseDemand = s.tableDemand d := by
  unfold State.handOn
  dsimp only
  rw [State.recomputeParents_leaseDemand, State.recounts_leaseDemand, State.handLeases_leaseDemand]
  by_cases h : s.tableDemand d = (s.ctrl d).leaseDemand
  · simp [h]
  · simp [h]

/-! ## The queue of commands -/

/-- A step runs the front command on the queue's rest. -/
theorem step_cons {s : State} {c : Instr} {rest : List Instr} (h : s.pending = c :: rest) :
    step s = exec c { s with pending := rest } := by simp [step, h]

end Sys2Proof.Machine
end

