-- ==== Sys2Proof/Laws/Notices.lean ====
section
/-! SUPPORT. What a notice does to the queues: one lemma for each of its three outcomes, and that a notice once told
stays told. -/

namespace Sys2Proof.Machine

variable {s : State} {c o : Client} {k : NoticeKind} {sub : Subject} {det : Detail}

/-- A queue replaced reads back with ATTN_N following its entries and its marker (R160). -/
theorem State.putQueue_queue (c : Client) (es : List Entry) (ov : Bool) (s : State) (o : Client) :
    (s.putQueue c es ov).queue o
      = if o = c then { entries := es, overrun := ov, attn := !es.isEmpty || ov } else s.queue o := by
  unfold State.putQueue
  dsimp only
  split <;> simp [State.queue, State.setQueue, State.emit, Vec.get_set]

/-- A notice reaches one queue. -/
theorem State.notify_queue_ne (h : o ≠ c) : (s.notify c k sub det).queue o = s.queue o := by
  unfold State.notify
  dsimp only
  split
  · simp [State.putQueue_queue, h]
  · split <;> simp [State.putQueue_queue, h]

theorem hasNotice_iff {es : List Entry} :
    hasNotice k sub es = true ↔ ∃ e ∈ es, e.kind = k ∧ e.subject = sub := by
  simp [hasNotice]

/-- A notice whose kind and subject wait already is merged (R155). -/
theorem State.notify_merges (h : hasNotice k sub (s.queue c).entries = true) :
    (s.notify c k sub det).queue c
      = { entries := mergeNotice k sub det (s.queue c).entries, overrun := (s.queue c).overrun
          attn := !(mergeNotice k sub det (s.queue c).entries).isEmpty || (s.queue c).overrun } := by
  simp [State.notify, h, State.putQueue_queue]

/-- A new notice is appended where there is room (R155). -/
theorem State.notify_appends (h : hasNotice k sub (s.queue c).entries = false)
    (room : (s.queue c).entries.length < Config.queueDepth) :
    (s.notify c k sub det).queue c
      = { entries := (s.queue c).entries ++ [{ kind := k, subject := sub, detail := det, count := 1 }]
          overrun := (s.queue c).overrun, attn := true } := by
  simp [State.notify, h, room, State.putQueue_queue]

/-- A new notice is dropped with the marker set where there is none (R155). -/
theorem State.notify_drops (h : hasNotice k sub (s.queue c).entries = false)
    (full : Config.queueDepth ≤ (s.queue c).entries.length) :
    (s.notify c k sub det).queue c = { entries := (s.queue c).entries, overrun := true, attn := true } := by
  simp [State.notify, h, Nat.not_lt.2 full, State.putQueue_queue]

theorem mergeNotice_split {before after : List Entry} {e : Entry} (he : e.kind = k ∧ e.subject = sub)
    (hb : ∀ x ∈ before, ¬ (x.kind = k ∧ x.subject = sub)) :
    mergeNotice k sub det (before ++ e :: after)
      = before ++ { e with detail := det, count := min (e.count + 1) Config.countMax } :: after := by
  induction before with
  | nil => simp [mergeNotice, he]
  | cons x xs ih =>
    have hx := hb x (by simp)
    have := ih (fun y hy => hb y (by simp [hy]))
    simp only [List.cons_append, mergeNotice, hx, if_false, this]

/-- Merging keeps the kinds and the subjects, in their order. -/
theorem mergeNotice_keys (es : List Entry) :
    (mergeNotice k sub det es).map (fun e => (e.kind, e.subject)) = es.map (fun e => (e.kind, e.subject)) := by
  induction es with
  | nil => rfl
  | cons e es ih => unfold mergeNotice; split <;> simp [ih]

theorem mergeNotice_length (es : List Entry) : (mergeNotice k sub det es).length = es.length := by
  simpa using congrArg List.length (mergeNotice_keys (k := k) (sub := sub) (det := det) es)

/-- A notice of the kind and the subject waits at the client, or was lost with the marker set. -/
def State.toldOf (s : State) (c : Client) (k : NoticeKind) (sub : Subject) : Prop :=
  hasNotice k sub (s.queue c).entries = true ∨ (s.queue c).overrun = true

theorem hasNotice_congr {es fs : List Entry}
    (h : es.map (fun e => (e.kind, e.subject)) = fs.map (fun e => (e.kind, e.subject))) :
    hasNotice k sub es = hasNotice k sub fs := by
  have key : ∀ xs : List Entry, hasNotice k sub xs
      = (xs.map (fun e => (e.kind, e.subject))).any (fun p => decide (p.1 = k ∧ p.2 = sub)) := by
    intro xs; simp [hasNotice, List.any_map, Function.comp_def]
  rw [key, key, h]

/-- A notice is told. -/
theorem State.notify_told (s : State) (c : Client) (k : NoticeKind) (sub : Subject) (det : Detail) :
    (s.notify c k sub det).toldOf c k sub := by
  cases h : hasNotice k sub (s.queue c).entries with
  | true =>
    left
    rw [State.notify_merges h]
    exact (hasNotice_congr (mergeNotice_keys _)).trans h
  | false =>
    by_cases room : (s.queue c).entries.length < Config.queueDepth
    · left; rw [State.notify_appends h room]; simp [hasNotice]
    · right; rw [State.notify_drops h (Nat.not_lt.1 room)]

/-- What was told stays told through a later notice. -/
theorem State.notify_keeps_told (k' : NoticeKind) (sub' : Subject) (det' : Detail) (o : Client)
    (h : s.toldOf c k sub) : (s.notify o k' sub' det').toldOf c k sub := by
  unfold State.toldOf at h ⊢
  by_cases ho : c = o
  · subst ho
    cases hm : hasNotice k' sub' (s.queue c).entries with
    | true =>
      rw [State.notify_merges hm]
      rcases h with h | h
      · exact .inl ((hasNotice_congr (mergeNotice_keys _)).trans h)
      · exact .inr h
    | false =>
      by_cases room : (s.queue c).entries.length < Config.queueDepth
      · rw [State.notify_appends hm room]
        rcases h with h | h
        · left
          obtain ⟨e, he, hk⟩ := hasNotice_iff.1 h
          exact hasNotice_iff.2 ⟨e, by simp [he], hk⟩
        · exact .inr h
      · rw [State.notify_drops hm (Nat.not_lt.1 room)]; exact .inr rfl
  · rw [State.notify_queue_ne ho]; exact h

end Sys2Proof.Machine
end

