-- ==== Sys2Proof/Laws/Domains.lean ====
section
/-! SUPPORT. The controller a passage leaves: what each shared operation does to the record of a domain, and what the
operations on notices, client lines and home-lost events leave of it. -/

namespace Sys2Proof.Machine

variable (s : State) (d e : Dom)

theorem OnlyNotices.ctrl {s t : State} (h : OnlyNotices s t) (d : Dom) : t.ctrl d = s.ctrl d := by
  have := congrArg State.ctrls h
  simp only [State.ctrl, this]

theorem OnlyClients.ctrl {s t : State} (h : OnlyClients s t) (d : Dom) : t.ctrl d = s.ctrl d := by
  have := congrArg State.ctrls h
  simp only [State.ctrl, this]

theorem OnlyDomains.slots {s t : State} (h : OnlyDomains s t) : t.slots = s.slots := by
  have := congrArg State.slots h
  simpa using this

/-- An output driven: the record has the new outputs, driven or already there. -/
theorem State.drive_ctrl (p : Pins) (x : PinChange) :
    (s.drive d p x).ctrl e = if e = d then { s.ctrl d with pins := p } else s.ctrl e := by
  unfold State.drive
  by_cases h : (s.ctrl d).pins = p
  · rw [if_pos h]
    by_cases he : e = d
    · subst he; simp [← h]
    · simp [he]
  · rw [if_neg h]
    simp [State.setCtrl, State.emit, State.ctrl, Vec.get_set]

theorem State.drivePen_ctrl (v : Bool) :
    (s.drivePen d v).ctrl e
      = if e = d then { s.ctrl d with pins := { (s.ctrl d).pins with pen := v } } else s.ctrl e := s.drive_ctrl d e _ _
theorem State.driveDclk_ctrl (v : Dclk) :
    (s.driveDclk d v).ctrl e
      = if e = d then { s.ctrl d with pins := { (s.ctrl d).pins with dclk := v } } else s.ctrl e := s.drive_ctrl d e _ _
theorem State.driveIso_ctrl (v : Bool) :
    (s.driveIso d v).ctrl e
      = if e = d then { s.ctrl d with pins := { (s.ctrl d).pins with iso := v } } else s.ctrl e := s.drive_ctrl d e _ _
theorem State.driveDrst_ctrl (v : Bool) :
    (s.driveDrst d v).ctrl e
      = if e = d then { s.ctrl d with pins := { (s.ctrl d).pins with drst := v } } else s.ctrl e := s.drive_ctrl d e _ _

theorem State.enter_ctrl (st : DomState) (n : Nat) :
    (s.enter d st n).ctrl e = if e = d then { s.ctrl d with state := st, timer := n } else s.ctrl e :=
  State.modCtrl_ctrl ..
theorem State.setCold_ctrl (v : Bool) :
    (s.setCold d v).ctrl e = if e = d then { s.ctrl d with cold := v } else s.ctrl e := State.modCtrl_ctrl ..

theorem State.recount_ctrl :
    (s.recount d).ctrl e = if e = d then { s.ctrl d with counts := (s.ctrl d).counted } else s.ctrl e :=
  State.modCtrl_ctrl ..
theorem State.setPgood_ctrl (v : Bool) :
    (s.setPgood d v).ctrl e = if e = d then { s.ctrl d with pgood := v } else s.ctrl e := State.modCtrl_ctrl ..
theorem State.setLoss_ctrl (v : Bool) :
    (s.setLoss d v).ctrl e = if e = d then { s.ctrl d with lossPending := v } else s.ctrl e := State.modCtrl_ctrl ..

/-- Into DISCHARGE (R86). -/
theorem State.toDischarge_ctrl :
    (s.toDischarge d).ctrl d
      = { s.ctrl d with
          state := .discharge, timer := (s.ctrl d).setup.discharge, cold := true
          pins := { (s.ctrl d).pins with drst := true, pen := false } } := by
  simp [State.toDischarge, State.drivePen_ctrl, State.driveDrst_ctrl, State.setCold_ctrl, State.enter_ctrl]

theorem State.toDischarge_ctrl_ne (h : e ≠ d) : (s.toDischarge d).ctrl e = s.ctrl e := by
  simp [State.toDischarge, State.drivePen_ctrl, State.driveDrst_ctrl, State.setCold_ctrl, State.enter_ctrl, h]

/-- The four outputs dropped (R88). -/
theorem State.dropOutputs_ctrl :
    (s.dropOutputs d).ctrl e = if e = d then { s.ctrl d with pins := Pins.offRow } else s.ctrl e := by
  by_cases h : e = d
  · subst h
    simp [State.dropOutputs, State.drivePen_ctrl, State.driveDrst_ctrl, State.driveDclk_ctrl, State.driveIso_ctrl,
      Pins.offRow]
  · simp [State.dropOutputs, State.drivePen_ctrl, State.driveDrst_ctrl, State.driveDclk_ctrl, State.driveIso_ctrl, h]

theorem State.notify_ctrl (c : Client) (k : NoticeKind) (sub : Subject) (det : Detail) :
    (s.notify c k sub det).ctrl d = s.ctrl d := (s.notify_frame ..).ctrl d
theorem State.notifyOwner_ctrl (o : Owner) (k : NoticeKind) (sub : Subject) (det : Detail) :
    (s.notifyOwner o k sub det).ctrl d = s.ctrl d := (s.notifyOwner_frame ..).ctrl d

/-- A fold of notices leaves every controller. -/
theorem State.foldl_notifyOwner_ctrl {α : Type} (f : State → α → State)
    (h : ∀ t x, OnlyNotices t (f t x)) (xs : List α) : (xs.foldl f s).ctrl d = s.ctrl d :=
  (foldl_keeps OnlyNotices OnlyNotices.refl OnlyNotices.trans f h xs s).ctrl d

theorem State.tellFault_ctrl (cause : FaultCause) : (s.tellFault d cause).ctrl e = s.ctrl e := by
  unfold State.tellFault
  rw [State.foldl_notifyOwner_ctrl _ _ _ (fun _ _ => State.notifyOwner_frame ..), State.notify_ctrl]
theorem State.tellUngranted_ctrl (before : Reach) : (s.tellUngranted d before).ctrl e = s.ctrl e :=
  State.foldl_notifyOwner_ctrl _ _ _ (fun _ _ => State.notifyOwner_frame ..) _
theorem State.tellGranted_ctrl (before : Reach) : (s.tellGranted d before).ctrl e = s.ctrl e := by
  unfold State.tellGranted
  split
  · rfl
  · exact State.foldl_notifyOwner_ctrl _ _ _ (fun _ _ => State.notifyOwner_frame ..) _

theorem State.driveCrst_ctrl (c : Client) (v : Bool) : (s.driveCrst c v).ctrl d = s.ctrl d :=
  (s.driveCrst_clients c v).ctrl d
theorem State.syncHome_ctrl : (s.syncHome d).ctrl e = s.ctrl e := by
  unfold State.syncHome; split
  · exact State.driveCrst_ctrl ..
  · rfl
theorem State.raiseHomeLost_ctrl : (s.raiseHomeLost d).ctrl e = s.ctrl e := by
  unfold State.raiseHomeLost; split <;> rfl

/-- The derived demand handed to a domain's parent touches that one record (R98). -/
theorem State.recomputeParent_ctrl :
    (s.recomputeParent d).ctrl e
      = if (s.ctrl d).setup.parent = some e then (s.ctrl e).hand (s.ctrl e).leaseDemand (s.derivedFrom e)
        else s.ctrl e := by
  unfold State.recomputeParent
  split
  · rename_i p hp
    simp only [hp, Option.some.injEq, State.recompute, State.modCtrl_ctrl]
    by_cases h : e = p
    · subst h; simp
    · simp [h, Ne.symm h]
  · rename_i hp; simp [hp]

/-- CRST_N of a client driven: the record has the level, driven or already there (R140). -/
theorem State.driveCrst_client (c o : Client) (v : Bool) :
    (s.driveCrst c v).client o = if o = c then { s.client c with crst := v } else s.client o := by
  unfold State.driveCrst
  by_cases h : (s.client c).crst = v
  · rw [if_pos h]
    by_cases ho : o = c
    · subst ho; simp [← h]
    · simp [ho]
  · rw [if_neg h]
    simp [State.setClient, State.emit, State.client, Vec.get_set]

end Sys2Proof.Machine
end

