-- ==== Sys2Proof/Laws/PerInstr.lean ====
section
/-! SUPPORT. Statements about every command, one lemma per constructor. -/

namespace Sys2Proof.Laws.Shape

/-- Only an IGNORED_TRANSACTION can be ill formed, and it is exactly when its first byte is C3h or 3Ch: its bytes
then make a SEND or a COLLECT (R169). -/
def Statement (i : Instr) : Prop :=
  i.wellFormed = false →
    ∃ c cut b rest, i = .ignoredTransaction c cut (b :: rest) ∧ (b = sendByte ∨ b = collectByte)

theorem leaseTake : Statement .leaseTake := nofun
theorem leaseRenew : Statement .leaseRenew := nofun
theorem leaseAlter : Statement .leaseAlter := nofun
theorem leaseRelease : Statement .leaseRelease := nofun
theorem leaseRead : Statement .leaseRead := nofun
theorem leaseList : Statement .leaseList := nofun
theorem leaseRevoke : Statement .leaseRevoke := nofun
theorem leaseOffer : Statement .leaseOffer := nofun
theorem leaseWithdraw : Statement .leaseWithdraw := nofun
theorem leaseAccept : Statement .leaseAccept := nofun
theorem leaseAdopt : Statement .leaseAdopt := nofun
theorem watchSet : Statement .watchSet := nofun
theorem watchDrop : Statement .watchDrop := nofun
theorem watchRead : Statement .watchRead := nofun
theorem linesRead : Statement .linesRead := nofun
theorem domainRead : Statement .domainRead := nofun
theorem domainSetup : Statement .domainSetup := nofun
theorem domainDivide : Statement .domainDivide := nofun
theorem domainClear : Statement .domainClear := nofun
theorem clientStatus : Statement .clientStatus := nofun
theorem clientClearCause : Statement .clientClearCause := nofun
theorem clientQuota : Statement .clientQuota := nofun
theorem clientRestart : Statement .clientRestart := nofun
theorem superPass : Statement .superPass := nofun
theorem noticeFetch : Statement .noticeFetch := nofun
theorem partIdent : Statement .partIdent := nofun
theorem remainingReachesZero (slot : SlotNo) : Statement (.remainingReachesZero slot) := nofun
theorem leaseTermExpiry (h : Handle) : Statement (.leaseTermExpiry h) := nofun
theorem offerWindowRunsOut (slot : SlotNo) : Statement (.offerWindowRunsOut slot) := nofun
theorem offerWindowExpiry (h : Handle) : Statement (.offerWindowExpiry h) := nofun
theorem adoptionWindowRunsOut : Statement .adoptionWindowRunsOut := nofun
theorem adoptionWindowExpiry : Statement .adoptionWindowExpiry := nofun
theorem firing (w : WatchId) : Statement (.firing w) := nofun
theorem tick : Statement .tick := nofun
theorem lineSample : Statement .lineSample := nofun
theorem wakeLineChange (l : Line) (high : Bool) : Statement (.wakeLineChange l high) := nofun
theorem demandChange (d : Dom) : Statement (.demandChange d) := nofun
theorem parentChange (d : Dom) : Statement (.parentChange d) := nofun
theorem pgoodPresent (d : Dom) : Statement (.pgoodPresent d) := nofun
theorem pgoodLoss (fall : PgoodFall) : Statement (.pgoodLoss fall) := nofun
theorem rampEnd (d : Dom) : Statement (.rampEnd d) := nofun
theorem settleEnd (d : Dom) : Statement (.settleEnd d) := nofun
theorem lingerEnd (d : Dom) : Statement (.lingerEnd d) := nofun
theorem dischargeEnd (d : Dom) : Statement (.dischargeEnd d) := nofun
theorem homeLostTeardown (c : Client) : Statement (.homeLostTeardown c) := nofun
theorem restartPulseEnd (c : Client) : Statement (.restartPulseEnd c) := nofun
theorem restDelayEnd : Statement .restDelayEnd := nofun
theorem wakingEnd : Statement .wakingEnd := nofun
theorem resetAssert : Statement .resetAssert := nofun
theorem partStart (plan1 : Bool) (plan0 : Bool) : Statement (.partStart plan1 plan0) := nofun
theorem send (c : Client) (cut : Bool) (bytes : List Byte) : Statement (.send c cut bytes) := nofun
theorem collect (c : Client) (cut : Option Nat) (n : Nat) : Statement (.collect c cut n) := nofun
theorem ignoredTransaction (c : Client) (cut : Bool) (bytes : List Byte) :
    Statement (.ignoredTransaction c cut bytes) := by
  intro h
  cases bytes with
  | nil => simp [Instr.wellFormed, ignorable] at h
  | cons b rest =>
    refine ⟨c, cut, b, rest, rfl, ?_⟩
    simp only [Instr.wellFormed, ignorable, Bool.and_eq_false_iff, bne_eq_false_iff_eq] at h
    exact h


end Sys2Proof.Laws.Shape
end

