-- ==== Sys2Proof/Laws/Table.lean ====
section
/-! SUPPORT. What the operations on the lease table leave in a slot: a lease changed, created or retired, and a watch
ARMED again. -/

namespace Sys2Proof.Machine

variable (s : State) (i j : SlotNo)

/-- A lease changed in its slot: the generation stays (R7). -/
theorem State.putLease_slot (l : Lease) :
    (s.putLease i l).slot j = if j = i then { gen := (s.slot i).gen, cond := .lease l } else s.slot j :=
  State.setSlot_slot ..

/-- A watch ARMED again touches no slot. -/
theorem State.rearm_slots (w : WatchId) : (s.rearm w).slots = s.slots := by
  unfold State.rearm; split <;> rfl

theorem State.rearm_watch (w v : WatchId) :
    (s.rearm w).watch v = if v = w then (s.watch w).map (rearmedWatch s.wake) else s.watch v := by
  unfold State.rearm
  split
  · rename_i r hr
    simp only [State.watch, State.setWatch, Vec.get_set] at hr ⊢
    simp [hr]
  · rename_i hr
    by_cases h : v = w
    · subst h; simp [hr]
    · simp [h]

/-- A slot whose lease is retired: the next generation, FREE or RESERVED for the lease's watch (R2, R4). -/
theorem State.retire_slot {l : Lease} (h : s.leaseAt i = some l) :
    (s.retire i).slot j
      = if j = i then
          { gen := (s.slot i).gen + 1, cond := match l.binding with | none => .free | some w => .reserved w }
        else s.slot j := by
  unfold State.retire
  rw [h]
  dsimp only
  cases l.binding with
  | none => exact State.setSlot_slot ..
  | some w =>
    dsimp only
    have : ((s.setSlot i { gen := (s.slot i).gen + 1, cond := .reserved w }).rearm w).slot j
        = (s.setSlot i { gen := (s.slot i).gen + 1, cond := .reserved w }).slot j := by
      simp only [State.slot, State.rearm_slots]
    rw [this]
    exact State.setSlot_slot ..

/-- A slot without a lease is not retired. -/
theorem State.retire_none (h : s.leaseAt i = none) : s.retire i = s := by
  simp [State.retire, h]

/-- Retiring a lease touches no other slot's lease. -/
theorem State.retire_leaseAt :
    (s.retire i).leaseAt j = if j = i then none else s.leaseAt j := by
  cases h : s.leaseAt i with
  | none =>
    rw [State.retire_none _ _ h]
    by_cases e : j = i
    · subst e; simp [h]
    · simp [e]
  | some l =>
    simp only [State.leaseAt, State.retire_slot s i j h]
    by_cases e : j = i
    · subst e; cases l.binding <;> simp
    · simp [e]

/-- A creation before the counter's last value renumbers nothing (R10). -/
theorem State.makeRoom_same (h : s.counter ≠ Config.counterMax) : s.makeRoom = s := by
  simp [State.makeRoom, h]

/-- A renumbering keeps every slot's generation and condition but for the creation number of a lease (R10). -/
theorem State.makeRoom_slot :
    s.makeRoom.slot j = if s.counter = Config.counterMax then (s.slot j).renumbered s.renumber else s.slot j := by
  unfold State.makeRoom
  split
  · simp [State.slot]
  · rfl

theorem SlotRec.renumbered_gen (f : Nat → Nat) (r : SlotRec) : (r.renumbered f).gen = r.gen := by
  unfold SlotRec.renumbered; split <;> rfl

theorem State.makeRoom_gen : (s.makeRoom.slot j).gen = (s.slot j).gen := by
  rw [State.makeRoom_slot]; split
  · exact SlotRec.renumbered_gen ..
  · rfl

/-- A lease created in a slot (R4, R9). -/
theorem State.create_slot (o : Owner) (t : Template) (b : Option WatchId) :
    (s.create i o t b).slot j
      = if j = i then { gen := (s.slot i).gen, cond := .lease (newLease (s.makeRoom.counter + 1) o t b) }
        else s.makeRoom.slot j := by
  have : (s.create i o t b).slot j
      = (s.makeRoom.putLease i (newLease (s.makeRoom.counter + 1) o t b)).slot j := rfl
  rw [this, State.putLease_slot, State.makeRoom_gen]

theorem State.create_counter (o : Owner) (t : Template) (b : Option WatchId) :
    (s.create i o t b).counter = s.makeRoom.counter + 1 := rfl

/-- The condition of a LOW watch at the present sample (R122, R126). -/
theorem armedWatch_mark (u : WakeUnit) (r : Watch) :
    (armedWatch u r).mark
      = decide (r.sense = .low ∧ r.mask &&& ~~~ bankOf r.bank u.present ≠ 0) := by
  unfold armedWatch watchHolds
  cases h : r.sense <;> simp

/-- A watch ARMED again: its mark is that of a LOW watch at once, and its stale lines are those that have left the present
sample (R126, R128). -/
theorem rearmedWatch_eq (u : WakeUnit) (r : Watch) :
    rearmedWatch u r
      = { r with
          state := .armed, mark := decide (r.sense = .low ∧ r.mask &&& ~~~ bankOf r.bank u.present ≠ 0)
          stale := bankOf r.bank (u.lines ^^^ u.present) } := by
  unfold rearmedWatch
  rw [← armedWatch_mark u { r with stale := bankOf r.bank (u.lines ^^^ u.present) }]
  rfl

end Sys2Proof.Machine
end

