-- ==== Sys2Proof/Laws/Timebase.lean ====
section
/-! SUPPORT. What a tick leaves: each record with its counts lowered and its claims raised, what the timed steps can
change, the client records after their pulses, and the part state it ends in. -/

namespace Sys2Proof.Machine

variable (s t : State)

theorem State.countTick_slot (i : SlotNo) : s.countTick.slot i = (s.slot i).ticked := by
  simp [State.countTick, State.slot]
theorem State.countTick_ctrl (d : Dom) :
    s.countTick.ctrl d = { s.ctrl d with timer := (s.ctrl d).timer - 1 } := by
  simp [State.countTick, State.ctrl]
theorem State.countTick_client (c : Client) : s.countTick.client c = s.client c := rfl

/-- A claim waits after a raising exactly if it waited or was raised (R21). -/
theorem mem_joinClaims {h : Handle} {raised waiting : List Handle} :
    h ∈ joinClaims raised waiting ↔ h ∈ waiting ∨ h ∈ raised := by
  simp only [joinClaims, List.mem_append, List.mem_filter, decide_eq_true_eq]
  tauto

/-- No claim waits twice after a raising of different ones (R21). -/
theorem nodup_joinClaims {raised waiting : List Handle} (hr : raised.Nodup) (hw : waiting.Nodup) :
    (joinClaims raised waiting).Nodup := by
  refine List.Nodup.append hw (hr.filter _) ?_
  intro h hh hr
  simp only [List.mem_filter, decide_eq_true_eq] at hr
  exact hr.2 hh

/-- The handles of the leases that end are those of their slots. -/
theorem State.mem_handlesOf {ends : Lease → Bool} {h : Handle} :
    h ∈ s.handlesOf ends ↔ ∃ i l, s.leaseAt i = some l ∧ ends l = true ∧ s.handleAt i = h := by
  simp only [State.handlesOf, List.mem_map, List.mem_filter, List.mem_finRange, true_and]
  constructor
  · rintro ⟨i, hi, rfl⟩
    cases hl : s.leaseAt i with
    | none => simp [hl] at hi
    | some l => exact ⟨i, l, hl, by simpa [hl] using hi, rfl⟩
  · rintro ⟨i, l, hl, he, rfl⟩
    exact ⟨i, by simp [hl, he], rfl⟩

/-! ## The timed steps -/

/-- A timed step is a passage: it changes controllers, clients and queues only (R77). -/
theorem State.endStep_frame (d : Dom) (s : State) : OnlyDomains s (s.endStep d) := by
  unfold State.endStep
  split
  · split
    · rfl
    · exact State.toFault_frame ..
  · exact State.completeStart_frame ..
  · exact State.leaveLinger_frame ..
  · exact State.toOff_frame ..
  all_goals rfl

theorem State.endTimer_frame (d : Dom) : OnlyDomains s (s.endTimer d) := by
  unfold State.endTimer; split
  · exact State.event_frame d _ (State.endStep_frame d) s
  · rfl

/-- The timed steps of a tick change controllers, clients and queues only. -/
theorem State.endTimers_frame (order : List Dom) : OnlyDomains s (s.endTimers order) :=
  foldl_keeps _ OnlyDomains.refl OnlyDomains.trans _ State.endTimer_frame _ _

/-- A tick that ends no timer makes no timed step (R77). -/
theorem State.endTimers_none (order : List Dom)
    (h : ∀ d, ¬ (timed (s.ctrl d).state = true ∧ (s.ctrl d).timer = 0)) : s.endTimers order = s := by
  unfold State.endTimers
  induction order with
  | nil => rfl
  | cons d ds ih => rw [List.foldl_cons, State.endTimer, if_neg (h d)]; exact ih

/-! ## The restart pulses -/

theorem State.syncCrst_ctrl (c : Client) (d : Dom) : (s.syncCrst c).ctrl d = s.ctrl d := State.driveCrst_ctrl ..

/-- One client made to follow: only its CRST_N and its tie move (R140, R141). -/
theorem State.syncCrst_client (c o : Client) :
    (s.syncCrst c).client o
      = if o = c then
          { s.client c with
            tied := s.staysTied c
            crst := (s.ctrl (homeOf c)).cold || decide (0 < (s.client c).pulse) || s.staysTied c }
        else s.client o := by
  unfold State.syncCrst
  rw [State.driveCrst_client]
  by_cases h : o = c
  · subst h; simp [State.setClient, State.client]
  · simp [h, State.setClient, State.client, Vec.get_set]

/-- Only client records and the record of output changes differ. -/
def OnlyPulses (s t : State) : Prop := t = { s with clients := t.clients, changes := t.changes }

theorem OnlyPulses.refl (s : State) : OnlyPulses s s := rfl
theorem OnlyPulses.trans {s t u : State} (h : OnlyPulses s t) (k : OnlyPulses t u) : OnlyPulses s u := by
  cases s; cases t; cases u; simp_all [OnlyPulses]
theorem OnlyPulses.ctrl {s t : State} (h : OnlyPulses s t) (d : Dom) : t.ctrl d = s.ctrl d := by
  unfold OnlyPulses at h; rw [h]; rfl

theorem State.syncCrst_pulses (c : Client) : OnlyPulses s (s.syncCrst c) := by
  unfold State.syncCrst State.driveCrst; dsimp only; split <;> rfl

theorem State.tickPulse_frame (c : Client) : OnlyPulses s (s.tickPulse c) := by
  unfold State.tickPulse; dsimp only; split
  · exact OnlyPulses.trans (t := s.setClient c _) rfl (State.syncCrst_pulses ..)
  · rfl

/-- A tick at the restart pulses touches client records and the record of output changes only (R141). -/
theorem State.tickPulses_frame : OnlyPulses s s.tickPulses :=
  foldl_keeps _ OnlyPulses.refl OnlyPulses.trans _ State.tickPulse_frame _ _

/-- The tick at one client's pulse leaves every other client's record (R141). -/
theorem State.tickPulse_client (c o : Client) (h : o ≠ c) : (s.tickPulse c).client o = s.client o := by
  unfold State.tickPulse; dsimp only; split
  · rw [State.syncCrst_client, if_neg h]; simp [State.setClient, State.client, Vec.get_set, h]
  · simp [State.setClient, State.client, Vec.get_set, h]

/-- A client's own record after the tick at its restart pulse (R140, R141). -/
theorem State.tickPulse_self (c : Client) :
    (s.tickPulse c).client c
      = if (s.client c).pulse = 1 then
          let tied := s.coldWaits (homeOf c) && !(s.ctrl (homeOf c)).cold && (s.ctrl (homeOf c)).eventWaits
          { s.client c with pulse := 0, tied := tied, crst := (s.ctrl (homeOf c)).cold || tied }
        else { s.client c with pulse := (s.client c).pulse - 1 } := by
  unfold State.tickPulse; dsimp only
  split
  · rw [State.syncCrst_client, if_pos rfl]
    simp [State.staysTied, State.setClient, State.client, State.ctrl]
  · simp [State.setClient, State.client]

/-- The end of the rest delay touches Rest Control only. -/
theorem State.endDelay_frame : s.endDelay t = { t with rest := (s.endDelay t).rest } := by
  unfold State.endDelay; split <;> rfl

theorem State.wholeTick_ctrl (order : List Dom) (d : Dom) :
    (s.wholeTick order).ctrl d = (s.countTick.endTimers order).ctrl d := by
  have h := congrArg State.ctrls (State.endDelay_frame s (s.countTick.endTimers order).tickPulses)
  have k : (s.wholeTick order).ctrl d = (s.countTick.endTimers order).tickPulses.ctrl d := by
    simp only [State.wholeTick, State.ctrl, h]
  rw [k, (State.tickPulses_frame _).ctrl]

/-- The tables a whole tick leaves: each slot with its counts lowered and its marks set, the claims joined by those raised
(R47, R49, R60, R165). -/
theorem State.wholeTick_slots (order : List Dom) :
    (s.wholeTick order).slots = s.slots.map SlotRec.ticked
    ∧ (s.wholeTick order).termClaims = joinClaims (s.handlesOf Lease.termEnds) s.termClaims
    ∧ (s.wholeTick order).windowClaims = joinClaims (s.handlesOf Lease.windowEnds) s.windowClaims
    ∧ (s.wholeTick order).adoption = s.adoption.map (fun n => n - 1)
    ∧ (s.wholeTick order).adoptionMark = (s.adoptionMark || s.adoptionEnds) := by
  have h : s.wholeTick order
      = { s.countTick with
          ctrls := (s.wholeTick order).ctrls, clients := (s.wholeTick order).clients
          queues := (s.wholeTick order).queues, changes := (s.wholeTick order).changes
          rest := (s.wholeTick order).rest } := by
    have a := State.endTimers_frame s.countTick order
    have b := State.tickPulses_frame (s.countTick.endTimers order)
    have c := State.endDelay_frame s (s.countTick.endTimers order).tickPulses
    unfold OnlyDomains at a
    unfold OnlyPulses at b
    unfold State.wholeTick
    generalize s.countTick.endTimers order = u at a b c ⊢
    generalize u.tickPulses = v at b c ⊢
    generalize s.endDelay v = w at c ⊢
    rw [c, b, a]
  rw [h]
  exact ⟨rfl, rfl, rfl, rfl, rfl⟩

end Sys2Proof.Machine
end

