-- ==== Sys2Proof/Laws/Watches.lean ====
section
/-! SUPPORT. Masks and banks read bit by bit. -/

namespace Sys2Proof.Machine

/-- A mask meets a byte exactly where a bit is set in both. -/
theorem mask_meets (m v : BitVec 8) : m &&& v ≠ 0 ↔ ∃ i, i < 8 ∧ m.getLsbD i = true ∧ v.getLsbD i = true := by
  constructor
  · intro h
    by_contra hn
    refine h (BitVec.eq_of_getLsbD_eq fun i hi => ?_)
    have : ¬ (m.getLsbD i = true ∧ v.getLsbD i = true) := fun k => hn ⟨i, hi, k⟩
    simpa using this
  · rintro ⟨i, hi, hm, hv⟩ h
    have := congrArg (fun x => x.getLsbD i) h
    simp [hm, hv] at this

/-- Bit `i` of a bank is line 8·bank+i (R120). -/
theorem bankOf_bit (b : Fin 3) (v : BitVec 24) {i : Nat} (hi : i < 8) :
    (bankOf b v).getLsbD i = v.getLsbD (8 * b.1 + i) := by
  simp [bankOf, hi]

/-- The complement of a bank, within the bank. -/
theorem bankOf_not_bit (b : Fin 3) (v : BitVec 24) {i : Nat} (hi : i < 8) :
    (~~~ bankOf b v).getLsbD i = !v.getLsbD (8 * b.1 + i) := by
  simp [bankOf, hi]

/-- The previous sample as a watch sees it: on its stale lines the present one (R128). -/
theorem WakeUnit.seenBy_bit (u : WakeUnit) (r : Watch) {i : Nat} (hi : i < 8) :
    (u.seenBy r).previous.getLsbD (8 * r.bank.1 + i)
      = if r.stale.getLsbD i then u.present.getLsbD (8 * r.bank.1 + i)
        else u.previous.getLsbD (8 * r.bank.1 + i) := by
  have hb : 8 * r.bank.1 + i < 24 := by omega
  simp only [WakeUnit.seenBy, atBank, BitVec.getLsbD_xor, BitVec.getLsbD_and, BitVec.getLsbD_shiftLeft,
    BitVec.getLsbD_setWidth, hb]
  have : ¬ (8 * r.bank.1 + i < 8 * r.bank.1) := by omega
  have e : 8 * r.bank.1 + i - 8 * r.bank.1 = i := by omega
  have f : i < 24 := by omega
  simp only [this, e, f]
  cases r.stale.getLsbD i <;> cases u.previous.getLsbD (8 * r.bank.1 + i) <;>
    cases u.present.getLsbD (8 * r.bank.1 + i) <;> rfl

end Sys2Proof.Machine
end

