-- ==== Sys2Proof/Tests/Slice0.lean ====
section
/-! SUPPORT. Tests, each about one step on a small state: the ill-formed command refused, the spec's CRC values, and
for every statement of Certificates/Slice0/Obligations.lean a `witness_<statement>` whose state and operands meet all
its hypotheses together, with what the command then leaves. -/

open Sys2Proof Sys2Proof.Machine Sys2Proof.Statement

namespace Sys2Proof.Tests

set_option Elab.async false

/-! ## Small states -/

/-- What a command answers, looked at. -/
def gives (o : Result) (look : State → Bool) : Bool :=
  match o with
  | .next t => look t
  | .fault _ | .refused _ => false

/-- Whether a command leaves a state exactly as it is. -/
def still (c : Instr) (s : State) : Bool := gives (exec c s) (fun t => decide (t = s))

/-- The part awake with an empty table and every domain OFF. -/
def up : State := { State.reset with resetLow := false }

/-- A request with sequence number 1. -/
def req (k : ReqKind) (body : List Byte) : Request := { seq := 1, kind := k, body := body }

/-- A request held at the port of a client. -/
def ask (c : Client) (r : Request) (s : State) : State := s.setPort c { Port.initial with state := .held r }

/-- The template of the leases below: D0 at FULL, untimed, tag 7. -/
def full : Template := { domain := 0, level := .full, term := 0, lapse := .release, survives := false, tag := 7 }

/-- A timed lease that has run out. -/
def spentTerm (l : Lease) : Lease := { l with term := 5, remaining := some 0 }

/-- A lease of a client on D0. -/
def own (n : Nat) (c : Client) : Lease := newLease n (.client c) full none

/-- A lease of BOOT on D0. -/
def boot (n : Nat) : Lease := newLease n .boot { full with term := 9 } none

/-- Every domain counted as it stands, each parent's derived demand that of its counted children, and every CRST_N as
its home domain and its pulse have it. -/
def tidy (s : State) : State :=
  let t := { s with ctrls := Vec.ofFn (fun d => { s.ctrl d with counts := (s.ctrl d).counted }) }
  { t with
    ctrls := Vec.ofFn (fun d => { t.ctrl d with derivedDemand := t.derivedFrom d })
    clients := Vec.ofFn (fun c =>
      { t.client c with crst := (t.ctrl (homeOf c)).cold || decide (0 < (t.client c).pulse) || (t.client c).tied }) }

/-- A lease put into a slot, the counter at least its number and the lease demands handed on. -/
def put (i : SlotNo) (l : Lease) (s : State) : State :=
  let t := { s.putLease i l with counter := max s.counter l.creation }
  tidy { t with ctrls := Vec.ofFn (fun d => { t.ctrl d with leaseDemand := t.tableDemand d }) }

/-- A domain's record changed, its outputs those of its state. -/
def dom (d : Dom) (f : Ctrl → Ctrl) (s : State) : State :=
  let r := f (s.ctrl d)
  tidy (s.setCtrl d { r with pins := rowPins r })

/-- Rest Control in a part state. -/
def rest (p : PartState) (timer divider : Nat) (due : Due) (s : State) : State :=
  { s with rest := { part := p, timer := timer, divider := divider, due := due } }

/-- A state whose next TREF period brings a tick. -/
def due (s : State) : State := rest .awake 0 31 .none s

/-- A LOW watch of client 0 on line 0 with slot 5 reserved. -/
def lowWatch : Watch :=
  { owner := 0, bank := 0, mask := 1, sense := .low, template := full, state := .armed, slot := 5, mark := false
    stale := 0 }

/-- The part with that watch set, and its line high. -/
def watched : State :=
  { (up.setSlot 5 { gen := 3, cond := .reserved 2 }).setWatch 2 (some lowWatch) with
    wake := { lines := 1, present := 1, previous := 1, latches := 0 } }

/-- The watch SPENT, its lease bound and offered to none. -/
def fired : State :=
  (put 5 { own 1 0 with binding := some 2 } watched).setWatch 2 (some { lowWatch with state := .spent })

/-- The first `n` slots taken by leases of client 0, the creation numbers falling. -/
def firstSlots (n : Nat) : State :=
  { dom 0 (fun r => { r with leaseDemand := some .full }) up with
    counter := n
    slots := Vec.ofFn (fun i =>
      { gen := 0, cond := if i.1 < n then .lease (own (n - i.1) 0) else .free }) }

/-- Sixteen leases of client 0, its whole quota. -/
def quotaFull : State := firstSlots 16

/-- Every slot taken by client 1. -/
def tableFull : State := { up with slots := Vec.replicate 64 { gen := 0, cond := .lease (own 1 1) } }

/-- Every watch id taken. -/
def watchesFull : State := { up with watches := Vec.replicate 16 (some lowWatch) }

/-- A notice of a kind. -/
def note (k : NoticeKind) (n : Nat) : Entry :=
  { kind := k, subject := .lease { slot := 0, gen := BitVec.ofNat 10 n }, detail := .level 0 .full, count := 1 }

/-! ## Well-formedness, codes and the CRC -/

/-- An ignored transaction that opens with C3h is a SEND: the check refuses it. -/
theorem test_ill_formed_is_refused :
    (Instr.ignoredTransaction 0 false [0xC3, 1]).wellFormed = false
    ∧ (Instr.ignoredTransaction 0 false [0x3C]).wellFormed = false
    ∧ (Instr.ignoredTransaction 0 false [0xC2]).wellFormed = true
    ∧ (Instr.ignoredTransaction 0 false []).wellFormed = true := by decide

/-- The ill-formed command is no event of the part. -/
theorem test_ill_formed_changes_nothing : exec (.ignoredTransaction 0 false [0xC3]) up = .next up := rfl

theorem test_no_word_spells_a_command : decodeTableWord 8 0 = none := rfl

/-- The running CRC of the frame 01h 19h 00h (12.3). -/
theorem test_crc_of_the_example :
    crc8 [0x01] = 0xF4 ∧ crc8 [0x01, 0x19] = 0x8D ∧ crc8 [0x01, 0x19, 0x00] = 0xAA := by decide

/-- A body of another length, or with a code outside the codes, reads as none (R23, R178). -/
theorem test_bodies_outside_their_form :
    takeArgs [7, 3, 0, 9, 0, 0, 0, 1] ≠ none ∧ takeArgs [7, 3, 0, 9, 0, 0, 0, 1, 0] = none
    ∧ takeArgs [8, 3, 0, 9, 0, 0, 0, 1] = none ∧ takeArgs [7, 0, 0, 9, 0, 0, 0, 1] = none
    ∧ takeArgs [7, 3, 0, 9, 2, 0, 0, 1] = none ∧ takeArgs [7, 3, 0, 9, 0, 0, 0, 2] = none
    ∧ setupArgs [7, 8, 1, 1, 0, 0, 1, 1] ≠ none ∧ setupArgs [7, 8, 1, 0, 0, 0, 1, 1] = none
    ∧ setupArgs [7, 9, 1, 1, 0, 0, 1, 1] = none ∧ offerArgs [0, 0, 1, 16, 0] = none
    ∧ offerArgs [0, 0, 1, 0, 0] = none ∧ codeArgs 8 [8] = none ∧ codeArgs 8 [] = none := by decide +kernel

/-- The judged frame of that example is a NOTICE.FETCH with sequence number 1. -/
theorem test_frame_of_the_example :
    judgeFrame [0x01, 0x19, 0x00, 0xAA] = .good (req .noticeFetch [])
    ∧ judgeFrame [0x01, 0x19, 0x00] = .torn ∧ judgeFrame [0x01, 0x19, 0x00, 0xAB] = .bad 0x01 0x19
    ∧ judgeFrame [0x01, 0x19, 25, 0] = .bad 0x01 0x19 ∧ judgeFrame [0x01, 0x19] = .torn := by decide +kernel

/-- A frame cut short is torn, whatever its kind byte; received whole with a kind outside 1 to 26 it is bad (R171;
notes/assumptions 34). -/
theorem test_short_frame_of_no_kind_is_torn :
    judgeFrame [0x01, 0x1B] = .torn ∧ judgeFrame [0x01, 0x00, 0x02, 0xAA] = .torn
    ∧ judgeFrame [0x01, 0x1B, 0x00, crc8 [0x01, 0x1B, 0x00]] = .bad 0x01 0x1B := by decide +kernel

/-! ## The machine and the engine -/

theorem witness_PowerUpStateIsLawful :
    State.reset.resetLow = true ∧ State.reset = State.reset.blank ∧ TimerLaw State.reset ∧ DerivedLaw State.reset
    ∧ ResetLineLaw State.reset := by decide +kernel

theorem witness_StepRunsFrontCommand :
    gives (step { up with pending := [.tick, .lineSample] }) (fun t => decide (t.pending = [.lineSample])) = true
    ∧ step up = .next up := ⟨by decide +kernel, rfl⟩

theorem witness_RequestsAreTakenInTurn (s : State) (h : s = ask 1 (req .partIdent []) up) :
    s.running = true ∧ (s.port (s.turn + 1)).state = .held (req .partIdent [])
    ∧ (∀ m : Fin 4, m < 1 → ∀ q, (s.port (s.turn + m)).state ≠ .held q)
    ∧ gives (exec .partIdent s) (fun t => decide (t.turn = 2)) = true ∧ State.reset.running = false := by
  subst h
  refine ⟨by decide, by decide, ?_, by decide +kernel, rfl⟩
  intro m hm
  exact State.heldAt_none.1 (by revert m; decide)

/-- Whether it is a request's turn, and its checks give what is said. -/
def refuses (x : State × ReqKind × List Byte × Option Status) : Bool :=
  let r := req x.2.1 x.2.2.1
  let s := ask 0 r x.1
  decide (Turn s 0 r r.kind ∧ refusal s 0 r = x.2.2.2)

/-- A refused request answers its status with no body. -/
theorem test_a_refusal_answers (r : Request) (h : r = req .leaseRead [0, 0]) :
    gives (exec .leaseRead (ask 0 r up)) (fun t => decide (Answered (ask 0 r up) t 0 r .stale [])) = true := by
  subst h; decide +kernel

theorem witness_RequestsRefuseInOrder_lease :
    ([ (up, .leaseTake, [0, 0, 0, 0, 0, 0, 0, 0], some .badArgument)
     , (quotaFull, .leaseTake, [0, 3, 0, 0, 0, 0, 0, 0], some .quota)
     , (tableFull, .leaseTake, [0, 3, 0, 0, 0, 0, 0, 0], some .tableFull)
     , (up, .leaseTake, [7, 3, 255, 255, 1, 255, 255, 1], none)
     , (up, .leaseRenew, [0, 0, 2, 0, 0], some .badArgument)
     , (up, .leaseRenew, [0, 0, 0, 0, 0], some .stale)
     , (put 0 (own 1 1) up, .leaseRenew, [0, 0, 0, 0, 0], some .notOwner)
     , (put 0 (own 1 0) up, .leaseRenew, [0, 0, 0, 0, 0], some .badArgument)
     , (put 0 (own 1 0) up, .leaseRenew, [0, 0, 1, 0, 0], none)
     , (up, .leaseAlter, [0, 0, 4], some .badArgument)
     , (put 0 (own 1 0) up, .leaseAlter, [0, 1, 1], some .stale)
     , (put 0 (own 1 1) up, .leaseAlter, [0, 0, 1], some .notOwner)
     , (up, .leaseRelease, [0], some .badArgument)
     , (up, .leaseRelease, [0, 0], some .stale)
     , (put 0 (boot 1) up, .leaseRelease, [0, 0], some .notOwner)
     , (up, .leaseRead, [], some .badArgument)
     , (up, .leaseRead, [0, 0], some .stale)
     , (up, .leaseList, [3, 0, 0, 0, 0, 0], some .badArgument)
     , (up, .leaseRevoke, [0, 0, 0], some .badArgument)
     , ({ up with supervisor := 1 }, .leaseRevoke, [0, 0], some .notSupervisor)
     , (up, .leaseRevoke, [0, 0], some .stale) ].all refuses) = true := by decide +kernel

theorem witness_RequestsRefuseInOrder_handover :
    ([ (up, .leaseOffer, [0, 0, 1, 0, 0], some .badArgument)
     , (up, .leaseOffer, [0, 0, 1, 0x10, 0], some .badArgument)
     , (up, .leaseOffer, [0, 0, 1, 0, 1], some .stale)
     , (put 0 (own 1 1) up, .leaseOffer, [0, 0, 1, 0, 1], some .notOwner)
     , (put 0 (own 1 0) up, .leaseOffer, [0, 0, 0, 0, 1], some .self)
     , (put 0 { own 1 0 with offer := some { target := 2, window := 3 } } up, .leaseOffer, [0, 0, 1, 0, 1],
        some .offerOpen)
     , (put 0 { own 1 0 with binding := some 0 } up, .leaseOffer, [0, 0, 1, 0x0F, 0xFF], some .bound)
     , (up, .leaseWithdraw, [0], some .badArgument)
     , (up, .leaseWithdraw, [0, 0], some .stale)
     , (put 0 (own 1 1) up, .leaseWithdraw, [0, 0], some .notOwner)
     , (put 0 (own 1 0) up, .leaseWithdraw, [0, 0], some .notOffered)
     , (up, .leaseAccept, [0], some .badArgument)
     , (up, .leaseAccept, [0, 0], some .stale)
     , (put 0 (own 1 1) up, .leaseAccept, [0, 0], some .notOffered)
     , (put 20 { own 1 1 with offer := some { target := 0, window := 3 } } quotaFull, .leaseAccept, [0x50, 0],
        some .quota)
     , (up, .leaseAdopt, [0, 0, 0, 0, 2, 0, 0, 0], some .badArgument)
     , (up, .leaseAdopt, [0, 0, 0, 0, 0, 0, 0, 0], some .stale)
     , (put 0 (own 1 1) up, .leaseAdopt, [0, 0, 0, 0, 0, 0, 0, 0], some .notOffered)
     , (put 20 (boot 17) quotaFull, .leaseAdopt, [0x50, 0, 0, 0, 0, 0, 0, 0], some .quota) ].all refuses)
      = true := by decide +kernel

theorem witness_RequestsRefuseInOrder_others :
    ([ (up, .watchSet, [3, 1, 0, 0, 1, 0, 0, 0, 0, 0, 0], some .badArgument)
     , (up, .watchSet, [0, 0, 0, 0, 1, 0, 0, 0, 0, 0, 0], some .badArgument)
     , (watchesFull, .watchSet, [0, 1, 0, 0, 1, 0, 0, 0, 0, 0, 0], some .watchesFull)
     , (quotaFull, .watchSet, [0, 1, 0, 0, 1, 0, 0, 0, 0, 0, 0], some .quota)
     , (tableFull, .watchSet, [0, 1, 0, 0, 1, 0, 0, 0, 0, 0, 0], some .tableFull)
     , (up, .watchDrop, [16], some .badArgument)
     , (up, .watchDrop, [15], some .noWatch)
     , (watched.setWatch 2 (some { lowWatch with owner := 1 }), .watchDrop, [2], some .notOwner)
     , (up, .watchRead, [], some .badArgument)
     , (up, .watchRead, [0], some .noWatch)
     , (up, .domainRead, [8], some .badArgument)
     , (up, .domainSetup, [0, 8, 1, 0, 0, 0, 1, 0], some .badArgument)
     , ({ up with supervisor := 2 }, .domainSetup, [0, 8, 1, 1, 0, 0, 1, 0], some .notSupervisor)
     , (put 0 (own 1 0) up, .domainSetup, [0, 8, 1, 1, 0, 0, 1, 0], some .domainBusy)
     , (up, .domainSetup, [4, 7, 1, 1, 0, 0, 1, 0], some .cycle)
     , (up, .domainSetup, [3, 3, 1, 1, 0, 0, 1, 0], some .cycle)
     , (up, .domainDivide, [0, 9], some .badArgument)
     , ({ up with supervisor := 2 }, .domainDivide, [0, 8], some .notSupervisor)
     , (up, .domainClear, [8], some .badArgument)
     , ({ up with supervisor := 2 }, .domainClear, [0], some .notSupervisor)
     , (up, .domainClear, [0], some .notFaulted)
     , (up, .clientQuota, [0, 65], some .badArgument)
     , ({ up with supervisor := 2 }, .clientQuota, [0, 64], some .notSupervisor)
     , (quotaFull, .clientQuota, [0, 15], some .badArgument)
     , (quotaFull, .clientQuota, [0, 16], none)
     , (up, .clientRestart, [4], some .badArgument)
     , ({ up with supervisor := 2 }, .clientRestart, [1], some .notSupervisor)
     , (up, .clientRestart, [0], some .self)
     , (up, .superPass, [], some .badArgument)
     , ({ up with supervisor := 2 }, .superPass, [1], some .notSupervisor)
     , (up, .superPass, [0], some .self)
     , (up, .noticeFetch, [], some .empty)
     , (up.putQueue 0 [] true, .noticeFetch, [], some .overrun)
     , (up, .linesRead, [], none) ].all refuses) = true := by decide +kernel

/-! ## Lease requests -/

theorem witness_TakeCreatesLease (r : Request) (h : r = req .leaseTake [0, 3, 0, 0, 0, 0, 7, 0]) (s : State)
    (hs : s = ask 0 r up) :
    Turn s 0 r .leaseTake ∧ takeArgs r.body = some full ∧ s.charge 0 < (s.client 0).quota ∧ LowestFree s 0
    ∧ gives (exec .leaseTake s) (fun t =>
        decide (t.leaseAt 0 = some (own 1 0) ∧ (t.ctrl 0).leaseDemand = some .full
          ∧ (t.ctrl 0).demandPending = true)) = true := by
  subst h hs; decide +kernel

/-- The same at the counter's last value: the leases are renumbered, and the new one stands last. -/
theorem witness_TakeCreatesLease_last (r : Request) (h : r = req .leaseTake [0, 3, 0, 0, 0, 0, 7, 0]) (s : State)
    (hs : s = ask 0 r (put 1 (own Config.counterMax 1) (put 9 (own 5 1) up))) :
    Turn s 0 r .leaseTake ∧ takeArgs r.body = some full ∧ s.charge 0 < (s.client 0).quota ∧ LowestFree s 0
    ∧ CreationLaw s ∧ s.counter = Config.counterMax
    ∧ gives (exec .leaseTake s) (fun t =>
        decide (t.leaseAt 0 = some (own 3 0) ∧ t.leaseAt 1 = some (own 2 1) ∧ t.leaseAt 9 = some (own 1 1)
          ∧ t.counter = 3)) = true := by
  subst h hs; decide +kernel

theorem witness_CreationRenumbersAtTheLastNumber (s : State) (h : s = put 1 (own Config.counterMax 1) (put 9 (own 5 1) up)) :
    CreationLaw s ∧ s.counter = Config.counterMax ∧ s.leaseAt 1 = some (own Config.counterMax 1)
    ∧ s.leaseAt 9 = some (own 5 1) ∧ up.counter ≠ Config.counterMax := by
  subst h; decide +kernel

theorem witness_RenewAndAlterWriteTheirFields (s : State) (r r' : Request) (hr : r = req .leaseRenew [0, 0, 1, 0, 9])
    (hr' : r' = req .leaseAlter [0, 0, 1]) (hs : s = put 0 (own 1 0) up) :
    (Turn (ask 0 r s) 0 r .leaseRenew ∧ renewArgs r.body = some ({ slot := 0, gen := 0 }, some 9)
      ∧ Names s { slot := 0, gen := 0 } (own 1 0) ∧ (own 1 0).owner = .client 0 ∧ DemandLaw (ask 0 r s)
      ∧ gives (exec .leaseRenew (ask 0 r s)) (fun t =>
          decide (t.leaseAt 0 = some { own 1 0 with term := 9, remaining := some 9 })) = true)
    ∧ (Turn (ask 0 r' s) 0 r' .leaseAlter ∧ alterArgs r'.body = some ({ slot := 0, gen := 0 }, .hold)
      ∧ gives (exec .leaseAlter (ask 0 r' s)) (fun t =>
          decide (t.leaseAt 0 = some { own 1 0 with level := .hold } ∧ (t.ctrl 0).leaseDemand = some .hold)) = true) := by
  subst hr hr' hs; decide +kernel

theorem witness_ReleaseAndRevokeRetire (r r' : Request) (hr : r = req .leaseRelease [0x14, 0x03])
    (hr' : r' = req .leaseRevoke [0, 0]) (s s' : State) (hs : s = ask 0 r fired)
    (hs' : s' = ask 0 r' { put 0 (boot 1) up with adoption := some 9 }) :
    (Turn s 0 r .leaseRelease ∧ handleArgs r.body = some { slot := 5, gen := 3 }
      ∧ Names s { slot := 5, gen := 3 } { own 1 0 with binding := some 2 }
      ∧ gives (exec .leaseRelease s) (fun t =>
          decide (t.slot 5 = { gen := 4, cond := .reserved 2 } ∧ t.watch 2 = some lowWatch)) = true)
    ∧ (Turn s' 0 r' .leaseRevoke ∧ handleArgs r'.body = some { slot := 0, gen := 0 } ∧ s'.supervisor = 0
      ∧ Names s' { slot := 0, gen := 0 } (boot 1)
      ∧ gives (exec .leaseRevoke s') (fun t =>
          decide (t.slot 0 = { gen := 1, cond := .free } ∧ t.adoption = none)) = true) := by
  subst hr hr' hs hs'; decide +kernel

theorem witness_ReadsAnswerAndChangeNothing :
    ([ (put 0 (own 1 1) up, .leaseRead, [0, 0]), (watched, .watchRead, [2]), (up, .linesRead, [])
     , (up, .domainRead, [7]), (up, .clientStatus, [1, 2]), (up, .partIdent, []) ].all
      (fun x : State × ReqKind × List Byte =>
        let r := req x.2.1 x.2.2
        let s := ask 0 r x.1
        decide (DemandLaw s ∧ Turn s 0 r r.kind ∧ refusal s 0 r = none)
          && gives (exec (commandOf r.kind) s) (fun t => decide (t.slots = s.slots ∧ t.turn = 1)))) = true := by
  decide +kernel

/-- Nine leases: eight are listed and the more mark is set; the ninth is listed after the eighth. -/
theorem witness_ListGivesTheNextEight (r r' : Request) (hr : r = req .leaseList [1, 0, 0, 0, 0, 0])
    (hr' : r' = req .leaseList [0, 99, 0, 0, 0, 8]) (s : State)
    (hs : s = firstSlots 9) :
    CreationLaw s ∧ DemandLaw s ∧ Turn (ask 0 r s) 0 r .leaseList
    ∧ listArgs r.body = some (.owner (.client 0), 0) ∧ listArgs r'.body = some (.all, 8)
    ∧ gives (exec .leaseList (ask 0 r s)) (fun t =>
        match (t.port 0).state with
        | .ready a => decide (a.body.take 8 = [8, 1, 0x20, 0, 0, 0, 0, 1])
        | .idle | .held _ => false) = true
    ∧ gives (exec .leaseList (ask 0 r' s)) (fun t =>
        match (t.port 0).state with
        | .ready a => decide (a.body = [1, 0, 0, 0, 0, 0, 0, 9])
        | .idle | .held _ => false) = true := by
  subst hr hr' hs; decide +kernel

/-! ## Handing leases over -/

theorem witness_OfferOpensAndWithdrawRemoves (r r' : Request) (hr : r = req .leaseOffer [0, 0, 1, 0, 5])
    (hr' : r' = req .leaseWithdraw [0, 0]) (s s' : State) (hs : s = ask 0 r (put 0 (own 1 0) up))
    (hs' : s' = ask 0 r' (put 0 { own 1 0 with offer := some { target := 1, window := 5 } } up)) :
    (Turn s 0 r .leaseOffer ∧ offerArgs r.body = some ({ slot := 0, gen := 0 }, 1, 5)
      ∧ Names s { slot := 0, gen := 0 } (own 1 0) ∧ DemandLaw s
      ∧ gives (exec .leaseOffer s) (fun t =>
          decide ((t.queue 1).entries.length = 1 ∧ (t.queue 1).attn = true ∧ t.changes = [.attn 1 true])) = true)
    ∧ (Turn s' 0 r' .leaseWithdraw ∧ handleArgs r'.body = some { slot := 0, gen := 0 } ∧ DemandLaw s'
      ∧ gives (exec .leaseWithdraw s') (fun t => decide (t.leaseAt 0 = some (own 1 0) ∧ t.queues = s'.queues)) = true) := by
  subst hr hr' hs hs'; decide +kernel

theorem witness_AcceptAndAdoptMoveOwnership (r r' : Request) (hr : r = req .leaseAccept [0, 0])
    (hr' : r' = req .leaseAdopt [0, 0, 0, 4, 1, 0, 7, 1]) (s s' : State)
    (hs : s = ask 0 r (put 0 { own 1 1 with offer := some { target := 0, window := 5 } } up))
    (hs' : s' = ask 0 r' { put 0 (boot 1) up with adoption := some 9 }) :
    (Turn s 0 r .leaseAccept ∧ handleArgs r.body = some { slot := 0, gen := 0 } ∧ DemandLaw s
      ∧ Names s { slot := 0, gen := 0 } { own 1 1 with offer := some { target := 0, window := 5 } }
      ∧ s.charge 0 < (s.client 0).quota
      ∧ gives (exec .leaseAccept s) (fun t =>
          decide (t.leaseAt 0 = some (own 1 0) ∧ (t.queue 1).entries.length = 1)) = true)
    ∧ (Turn s' 0 r' .leaseAdopt ∧ DemandLaw s' ∧ Names s' { slot := 0, gen := 0 } (boot 1)
      ∧ adoptArgs r'.body
          = some ({ slot := 0, gen := 0 }, { term := 4, lapse := .restart, tag := 7, survives := true })
      ∧ s'.charge 0 < (s'.client 0).quota
      ∧ gives (exec .leaseAdopt s') (fun t =>
          decide ((t.leaseAt 0).map Lease.owner = some (.client 0) ∧ t.adoption = none)) = true) := by
  subst hr hr' hs hs'; decide +kernel

/-! ## Terms, windows and lapse -/

theorem witness_RunOutCountsRaiseTheirClaims (s s' s'' : State)
    (hs : s = due (put 0 { own 1 0 with term := 5, remaining := some 1 } up))
    (hs' : s' = due (put 0 { own 1 0 with offer := some { target := 1, window := 1 } } up))
    (hs'' : s'' = due { put 0 (boot 1) up with adoption := some 1 }) :
    (TickComes s ∧ s.leaseAt 0 = some { own 1 0 with term := 5, remaining := some 1 }
      ∧ gives (exec (.remainingReachesZero 0) s) (fun t => decide (t.termClaims = [{ slot := 0, gen := 0 }])) = true)
    ∧ (TickComes s' ∧ s'.leaseAt 0 = some { own 1 0 with offer := some { target := 1, window := 1 } }
      ∧ gives (exec (.offerWindowRunsOut 0) s') (fun t => decide (t.windowClaims = [{ slot := 0, gen := 0 }])) = true)
    ∧ TickComes s'' ∧ s''.leaseAt 0 = some (boot 1) ∧ s''.adoptionMark = false
    ∧ gives (exec .adoptionWindowRunsOut s'') (fun t => t.adoptionMark) = true := by
  subst hs hs' hs''; decide +kernel

theorem witness_ExpiryLapsesOrIsDiscarded (s s' s'' : State) (h : Handle) (hh : h = { slot := 0, gen := 0 })
    (hs : s = { put 0 (spentTerm (own 1 0)) up with termClaims := [h] })
    (hs' : s' = { put 0 { own 1 0 with expiryMark := true } up with termClaims := [h] })
    (hs'' : s'' = { up with termClaims := [h] }) :
    (s.running = true ∧ h ∈ s.termClaims ∧ Names s h (spentTerm (own 1 0))
      ∧ gives (exec (.leaseTermExpiry h) s) (fun t =>
          decide (t.slot 0 = { gen := 1, cond := .free } ∧ (t.queue 0).entries.length = 1 ∧ t.termClaims = [])) = true)
    ∧ (s'.running = true ∧ h ∈ s'.termClaims ∧ Names s' h { own 1 0 with expiryMark := true } ∧ DemandLaw s'
      ∧ gives (exec (.leaseTermExpiry h) s') (fun t => decide (t.leaseAt 0 = some (own 1 0) ∧ t.termClaims = [])) = true)
    ∧ s''.running = true ∧ h ∈ s''.termClaims ∧ s''.named h = none ∧ DemandLaw s''
    ∧ gives (exec (.leaseTermExpiry h) s'') (fun t => decide (t.termClaims = [])) = true := by
  subst hh hs hs' hs''; decide +kernel

/-- The lapsing lease survives restarts and is retired all the same; one other is retired and one survives. -/
theorem witness_RestartLapseRestartsTheOwner (s : State) (l : Lease) (h : Handle) (hh : h = { slot := 0, gen := 0 })
    (hl : l = { spentTerm (own 1 0) with lapse := .restart, survives := true })
    (hs : s = { put 7 { own 3 0 with survives := true } (put 6 (own 2 0) (put 0 l up)) with termClaims := [h] }) :
    LeaseLaw s ∧ TableLaw s ∧ s.running = true ∧ h ∈ s.termClaims ∧ Names s h l
    ∧ gives (exec (.leaseTermExpiry h) s) (fun t =>
        decide (t.leaseAt 0 = none ∧ t.leaseAt 6 = none ∧ t.leaseAt 7 = some { own 3 0 with survives := true }
          ∧ (t.client 0).pulse = 4 ∧ (t.client 0).causes.lapseRestart = true)) = true := by
  subst hh hl hs; decide +kernel

theorem witness_OfferExpiryEndsTheOffer (s s' : State) (l : Lease) (h : Handle) (hh : h = { slot := 0, gen := 0 })
    (hl : l = { own 1 0 with offer := some { target := 1, window := 0 }, windowMark := true })
    (hs : s = { put 0 l up with windowClaims := [h] })
    (hs' : s' = { put 0 { own 1 0 with windowMark := true } up with windowClaims := [h] }) :
    (s.running = true ∧ h ∈ s.windowClaims ∧ Names s h l ∧ DemandLaw s
      ∧ gives (exec (.offerWindowExpiry h) s) (fun t =>
          decide (t.leaseAt 0 = some (own 1 0) ∧ (t.queue 0).entries.length = 1)) = true)
    ∧ s'.running = true ∧ h ∈ s'.windowClaims ∧ DemandLaw s' ∧ s'.named h = some { own 1 0 with windowMark := true }
    ∧ gives (exec (.offerWindowExpiry h) s') (fun t =>
        decide (t.leaseAt 0 = some (own 1 0) ∧ t.queues = s'.queues)) = true := by
  subst hh hl hs hs'; decide +kernel

theorem witness_AdoptionExpiryLapsesBootLeases (s s' : State)
    (hs : s = { put 1 (boot 2) (put 0 (boot 1) up) with adoption := some 0, adoptionMark := true })
    (hs' : s' = { up with adoptionMark := true }) :
    (LeaseLaw s ∧ s.running = true ∧ s.leaseAt 0 = some (boot 1)
      ∧ gives (exec .adoptionWindowExpiry s) (fun t =>
          decide (t.hasLease = false ∧ t.adoption = none
            ∧ (t.queue 0).entries
              = [{ kind := .bootLapsed, subject := .domain 0, detail := .boot { slot := 1, gen := 0 } .full, count := 2 }]
            ∧ (t.slot 1).gen = 1)) = true)
    ∧ s'.running = true ∧ s'.adoptionMark = true ∧ DemandLaw s' ∧ s'.hasBoot = false
    ∧ gives (exec .adoptionWindowExpiry s') (fun t => !t.adoptionMark) = true := by
  subst hs hs'; decide +kernel

/-! ## Watches, lines and the tick -/

theorem witness_WatchSetReservesItsSlot (r : Request) (hr : r = req .watchSet [0, 1, 0, 0, 3, 0, 0, 0, 0, 0, 7])
    (a : WatchArgs) (ha : a = { bank := 0, mask := 1, sense := .low, template := full }) (s : State)
    (hs : s = ask 0 r up) :
    Turn s 0 r .watchSet ∧ watchSetArgs r.body = some a ∧ s.watch 0 = none ∧ s.charge 0 < (s.client 0).quota
    ∧ LowestFree s 0 ∧ DemandLaw s
    ∧ gives (exec .watchSet s) (fun t =>
        decide ((t.slot 0).cond = .reserved 0 ∧ (t.watch 0).map Watch.mark = some true)) = true := by
  subst hr ha hs; decide +kernel

theorem witness_WatchDropRemovesTheWatch (r : Request) (hr : r = req .watchDrop [2]) (s s' : State)
    (hs : s = ask 0 r watched) (hs' : s' = ask 0 r fired) :
    (TableLaw s ∧ DemandLaw s ∧ Turn s 0 r .watchDrop ∧ codeArgs 16 r.body = some (2 : WatchId)
      ∧ s.watch 2 = some lowWatch
      ∧ gives (exec .watchDrop s) (fun t =>
          decide (t.watch 2 = none ∧ t.slot 5 = { gen := 3, cond := .free })) = true)
    ∧ TableLaw s' ∧ DemandLaw s' ∧ Turn s' 0 r .watchDrop
    ∧ s'.watch 2 = some { lowWatch with state := .spent }
    ∧ gives (exec .watchDrop s') (fun t => decide (t.watch 2 = none ∧ t.leaseAt 5 = some (own 1 0))) = true := by
  subst hr hs hs'; decide +kernel

theorem witness_FiringCreatesTheBoundLease (s : State)
    (hs : s = watched.setWatch 2 (some { lowWatch with mark := true })) :
    s.running = true ∧ s.watch 2 = some { lowWatch with mark := true }
    ∧ gives (exec (.firing 2) s) (fun t =>
        decide (t.slot 5 = { gen := 3, cond := .lease { own 1 0 with binding := some 2 } }
          ∧ t.watch 2 = some { lowWatch with state := .spent } ∧ (t.queue 0).entries.length = 1)) = true := by
  subst hs; decide +kernel

theorem witness_TickLowersEveryCount (s s' : State)
    (hs : s = due
      { put 0 { own 1 0 with term := 5, remaining := some 5 }
          (dom 1 (fun r => { r with state := .full, cold := false, leaseDemand := some .full })
            (up.setClient 1 { ClientRec.initial with pulse := 1 })) with adoption := some 0 })
    (hs' : s' = rest .restingPending 1 0 .tick up) :
    (TickComes s ∧ DomainLaws s ∧ (s.client 1).crst = true
      ∧ gives (exec .tick s) (fun t =>
          decide ((t.leaseAt 0).map Lease.remaining = some (some 4) ∧ t.adoption = some 0 ∧ t.changes = [.crst 1 false]
            ∧ (t.client 1).crst = false ∧ t.rest = { part := .awake, timer := 0, divider := 0, due := .sample })) = true)
    ∧ (TickComes s' ∧ DomainLaws s' ∧ s'.restConditions = true
      ∧ gives (exec .tick s') (fun t =>
          decide (t.rest = { part := .quiet, timer := 0, divider := 0, due := .none })) = true)
    ∧ ¬ TickComes State.reset ∧ ¬ TickComes (rest .awake 0 30 .none s)
    ∧ still .tick (rest .awake 0 30 .none s) = true := by
  subst hs hs'; decide +kernel

/-- Parent and child end their lingers in one tick. In ascending order the parent descends to what the child still needs;
with the child's end first it descends to HELD (R85, R98). -/
theorem test_two_ends_in_one_tick (s : State)
    (hs : s = due (dom 5 (fun r => { r with state := .linger .full, timer := 1, cold := false })
      (dom 4 (fun r => { r with state := .linger .full, timer := 1, cold := false }) up))) :
    DomainLaws s ∧ EndLaw s
    ∧ gives (exec .tick s) (fun t =>
        decide ((t.ctrl 4).state = .slow ∧ (t.ctrl 4).demandPending = true ∧ (t.ctrl 5).state = .linger .hold)) = true
    ∧ gives (exec (.lingerEnd 5) s) (fun t =>
        decide ((t.ctrl 4).state = .linger .hold ∧ (t.ctrl 5).state = .linger .hold)) = true := by
  subst hs; decide +kernel

/-- A tie of a pulse's end with a demand change or a loss that makes the home cold leaves CRST_N asserted in either order
(R141). -/
theorem test_a_tie_keeps_the_client_in_reset (s s' : State)
    (hs : s = due (dom 0 (fun r => { r with state := .slow, cold := false, demandPending := true
                                            setup := { r.setup with linger := 0 } })
      (up.setClient 0 { ClientRec.initial with pulse := 1 })))
    (hs' : s' = due (dom 0 (fun r => { r with state := .slow, cold := false, lossPending := true, leaseDemand := some .slow })
      (up.setClient 0 { ClientRec.initial with pulse := 1 }))) :
    DomainLaws s
    ∧ gives (exec .tick s) (fun t =>
        decide ((t.client 0).pulse = 0 ∧ (t.client 0).crst = true ∧ t.changes = [] ∧ ResetLineLaw t)
          && gives (exec (.demandChange 0) t) (fun u =>
              decide ((u.ctrl 0).cold = true ∧ (u.client 0).crst = true ∧ (u.client 0).tied = false
                ∧ ∀ v, PinChange.crst 0 v ∉ u.changes))) = true
    ∧ gives (exec (.demandChange 0) s) (fun t =>
        decide ((t.client 0).crst = true)
          && gives (exec .tick t) (fun u => decide ((u.client 0).pulse = 0 ∧ (u.client 0).crst = true))) = true
    ∧ gives (exec .tick s') (fun t =>
        decide ((t.client 0).crst = true ∧ (t.client 0).tied = true)
          && gives (exec (.pgoodLoss ⟨0, false⟩) t) (fun u =>
              decide ((u.ctrl 0).state = .fault ∧ ∀ v, PinChange.crst 0 v ∉ u.changes))) = true := by
  subst hs hs'; decide +kernel

theorem witness_SampleJudgesTheWatches (s : State) (hs : s = { watched with wake := { watched.wake with lines := 0 } }) :
    s.running = true ∧ s.rest.due ≠ .tick
    ∧ gives (exec .lineSample s) (fun t =>
        decide ((t.watch 2).map Watch.mark = some true ∧ t.wake.previous = 1 ∧ t.rest.divider = 1)) = true
    ∧ gives (exec .lineSample (rest .awake 0 31 .none s)) (fun t =>
        decide (t.rest = { part := .awake, timer := 0, divider := 0, due := .tick })) = true
    ∧ gives (exec .lineSample (rest .awake 0 0 .sample s)) (fun t =>
        decide (t.rest = { part := .awake, timer := 0, divider := 0, due := .none })) = true
    ∧ still .lineSample (rest .awake 0 0 .tick s) = true := by
  subst hs; decide +kernel

/-- A FALL watch whose lease is released after its line fell does not fire on that edge, and does on a fall after the
release; a CHANGE watch fires through the latch (R128). -/
theorem test_changes_before_the_retirement_do_not_count (r : Request)
    (hr : r = req .leaseRelease (handleBytes { slot := 5, gen := 3 })) (at_ : Sense → State)
    (hs : at_ = fun sense =>
      ask 0 r ((fired.setWatch 2 (some { lowWatch with state := .spent, sense := sense })).moveLine 0 false)) :
    gives (exec .leaseRelease (at_ .fall)) (fun t =>
      decide ((t.watch 2).map (fun x => (x.state, x.stale)) = some (.armed, 1))
        && gives (exec .lineSample t) (fun u => decide ((u.watch 2).map (fun x => (x.mark, x.stale)) = some (false, 0)))
        && gives (exec (.wakeLineChange 0 true) t) (fun u =>
            gives (exec (.wakeLineChange 0 false) u) (fun v =>
              gives (exec .lineSample v) (fun w => decide ((w.watch 2).map Watch.mark = some true))))) = true
    ∧ gives (exec .leaseRelease (at_ .change)) (fun t =>
        gives (exec .lineSample t) (fun u => decide ((u.watch 2).map Watch.mark = some true))) = true := by
  subst hr hs; decide +kernel

theorem witness_LineChangeSetsTheLatch (s : State) (hs : s = rest .quiet 0 3 .none watched) :
    s.resetLow = false ∧ s.wake.lines.getLsbD 0 ≠ false ∧ s.wake.lines.getLsbD 23 ≠ true
    ∧ gives (exec (.wakeLineChange 0 false) s) (fun t =>
        decide (t.wake.latches = 1 ∧ t.rest = { part := .waking, timer := 64, divider := 3, due := .none })) = true
    ∧ gives (exec (.wakeLineChange 23 true) s) (fun t => decide (t.wake.latches = 0x800000 ∧ t.rest = s.rest)) = true := by
  subst hs; decide +kernel

/-! ## Domain controllers -/

/-- D5 in HELD under D4, which runs SLOW, with a demand of FULL. -/
def waiting : State :=
  dom 5 (fun r => { r with state := .held, leaseDemand := some .full, parentPending := true, demandPending := true })
    (dom 4 (fun r => { r with state := .slow, cold := false, leaseDemand := some .slow, derivedDemand := some .slow }) up)

/-- D0 running FULL with one lease of client 1 on it. -/
def running : State :=
  dom 0 (fun r => { r with state := .full, cold := false, pgood := true }) (put 0 (own 1 1) up)

/-- The laws that the statements about controller events assume. -/
abbrev EventLaws (s : State) : Prop :=
  s.running = true ∧ OutputLaw s ∧ ResetLineLaw s ∧ ForestLaw s ∧ TreeLaw s ∧ DerivedLaw s

/-- The premise of the charge's clause: an ARMED watch's slot and a lease count for client 0, and a SPENT watch's slot once
(R12, R17). -/
theorem witness_DerivedValuesFollowTheTables (s : State) (hs : s = put 0 { own 1 0 with domain := 3 } watched) :
    TableLaw s ∧ s.charge 0 = 2 ∧ s.charge 1 = 0 ∧ s.leaseCount 3 = 1 ∧ s.leaseCount 0 = 0
    ∧ TableLaw fired ∧ fired.charge 0 = 1 ∧ fired.leaseCount 0 = 1 := by
  subst hs; decide +kernel

theorem witness_DemandChangeMovesTheController (s s' : State)
    (hs : s = dom 0 (fun r => { r with leaseDemand := some .full, demandPending := true }) up)
    (hs' : s' = dom 5 (fun r => { r with setup := { r.setup with settle := 0, monitor := false } }) waiting) :
    (EventLaws s ∧ (s.ctrl 0).demandPending = true
      ∧ gives (exec (.demandChange 0) s) (fun t =>
          decide ((t.ctrl 0).state = .powering ∧ (t.ctrl 0).timer = 16 ∧ t.changes = [.pen 0 true])) = true)
    ∧ EventLaws s' ∧ (s'.ctrl 5).demandPending = true
    ∧ (demandPlace (s'.ctrl 5) (s'.permits 5)).1 = .fault
    ∧ gives (exec (.demandChange 5) s') (fun t =>
        decide ((t.ctrl 5).state = .fault ∧ (t.ctrl 5).cause = .recheck ∧ (t.queue 0).entries.length = 1)) = true := by
  subst hs hs'; decide +kernel

theorem witness_ParentChangeStartsTheWaitingChild (s : State)
    (hs : s = waiting) :
    EventLaws s ∧ (s.ctrl 5).parentPending = true ∧ s.permits 5 = true
    ∧ gives (exec (.parentChange 5) s) (fun t =>
        decide ((t.ctrl 5).state = .starting .full ∧ (t.ctrl 5).timer = 4 ∧ t.changes = [.dclk 5 .undivided])) = true := by
  subst hs; decide +kernel

theorem witness_PowerGoodEndsTheRamp (s : State)
    (hs : s = dom 0 (fun r => { r with state := .powering, timer := 9, leaseDemand := some .slow }) up) :
    EventLaws s ∧ (s.ctrl 0).pgood = false ∧ (s.ctrl 0).lossPending = false ∧ (s.ctrl 1).pgood = false
    ∧ gives (exec (.pgoodPresent 0) s) (fun t =>
        decide ((t.ctrl 0).state = .starting .slow ∧ (t.ctrl 0).timer = 4)) = true
    ∧ gives (exec (.pgoodPresent 1) s) (fun t => decide ((t.ctrl 1).state = .off ∧ (t.ctrl 1).pgood = true)) = true := by
  subst hs; decide +kernel

/-- The end of the worked fall of chapter 6: a FULL lease on D7 at tick 40 takes it from LINGER at HOLD to STARTING under
D6, which lingers at FULL until its own demand change cancels that; the two are two commands in either order (R84, R100;
notes/assumptions 33). -/
theorem test_start_under_a_lingering_parent (linger : Level → Ctrl → Ctrl)
    (hl : linger = fun l r => { r with state := .linger l, timer := 24, cold := false, pgood := true, demandPending := true })
    (s : State) (hs : s = dom 7 (linger .hold) (dom 6 (linger .full)
      (dom 4 (fun r => { r with state := .held, pgood := true }) (put 5 { own 1 3 with domain := 7 } up)))) :
    EventLaws s
    ∧ gives (exec (.demandChange 7) s) (fun t =>
        decide ((t.ctrl 7).state = .starting .full ∧ (t.ctrl 7).timer = 4 ∧ (t.ctrl 6).state = .linger .full
          ∧ (t.ctrl 6).demand = some .full ∧ (t.ctrl 6).demandPending = true)) = true
    ∧ gives (exec (.demandChange 6) s) (fun t =>
        decide ((t.ctrl 6).state = .full ∧ (t.ctrl 7).state = .linger .hold ∧ (t.ctrl 7).demandPending = true)) = true := by
  subst hl hs; decide +kernel

/-- GRANTED of the entry into HELD comes before DCLK starts toward the level demanded; with a settle time of 0 each lease
is granted once, at the level the event ends on, in ascending creation number (R76, R90). -/
theorem test_each_passage_makes_its_notices (at_ : Nat → State)
    (hs : at_ = fun settle => dom 0 (fun r => { r with state := .powering, timer := 9
                                                       setup := { r.setup with settle := settle } })
      (put 1 (own 2 2) (put 0 { own 1 1 with level := .hold } up))) :
    EventLaws (at_ 4) ∧ EventLaws (at_ 0)
    ∧ gives (exec (.pgoodPresent 0) (at_ 4)) (fun t =>
        decide ((t.ctrl 0).state = .starting .full ∧ t.changes = [.attn 1 true, .dclk 0 .undivided]
          ∧ (t.queue 1).entries.map Entry.detail = [.level 0 .hold] ∧ (t.queue 2).entries = [])) = true
    ∧ gives (exec (.pgoodPresent 0) (at_ 0)) (fun t =>
        decide ((t.ctrl 0).state = .full
          ∧ t.changes
              = [.dclk 0 .undivided, .drst 0 false, .iso 0 false, .attn 1 true, .attn 2 true, .crst 0 false]
          ∧ (t.queue 1).entries.map Entry.detail = [.level 0 .full])) = true := by
  subst hs; decide +kernel

theorem witness_SupplyFailureFaultsTheDomain (s s' : State) (hs : s = running)
    (hs' : s' = due (dom 0 (fun r => { r with state := .powering, timer := 1 }) up)) :
    (EventLaws s ∧ (s.ctrl 0).pgood = true
      ∧ gives (exec (.pgoodLoss ⟨0, false⟩) s) (fun t =>
          decide ((t.ctrl 0).state = .fault ∧ (t.ctrl 0).cause = .loss ∧ (t.client 0).homeLostPending = 1
            ∧ (t.queue 1).entries.length = 1
            ∧ t.changes.take 4 = [.iso 0 true, .dclk 0 .stopped, .drst 0 true, .pen 0 false])) = true)
    ∧ (EventLaws s' ∧ TickComes s' ∧ (s'.ctrl 0).timer = 1 ∧ (s'.ctrl 0).pgood = false
      ∧ gives (exec (.rampEnd 0) s') (fun t => decide ((t.ctrl 0).cause = .ramp)) = true)
    ∧ gives (exec (.pgoodLoss ⟨1, false⟩) (dom 1 (fun r => { r with pgood := true }) up)) (fun t =>
        decide ((t.ctrl 1).state = .off ∧ (t.ctrl 1).pgood = false)) = true := by
  subst hs hs'; decide +kernel

/-- A start that ends while its loss of PGOOD waits is a RECHECK fault with monitor-in-hold off, and the loss is then
ignored (R112). -/
theorem test_a_loss_that_waits_is_judged_after (s : State)
    (hs : s = due (dom 0 (fun r => { r with state := .starting .full, timer := 1, pgood := true
                                            setup := { r.setup with monitor := false } }) up)) :
    EventLaws s ∧ (s.ctrl 0).pgood = true
    ∧ gives (exec (.pgoodLoss ⟨0, true⟩) s) (fun t =>
        decide (EventLaws t ∧ (t.ctrl 0).lossPending = true ∧ (t.ctrl 0).state = .starting .full)
          && gives (exec (.pgoodLoss ⟨0, false⟩) t) (fun u => decide ((u.ctrl 0).cause = .loss))
          && gives (exec (.settleEnd 0) t) (fun u =>
              decide ((u.ctrl 0).cause = .recheck ∧ (u.ctrl 0).lossPending = true)
                && gives (exec (.pgoodLoss ⟨0, false⟩) u) (fun v =>
                    decide ((v.ctrl 0).cause = .recheck ∧ (v.ctrl 0).lossPending = false)))) = true := by
  subst hs; decide +kernel

/-- The outputs of one event change in their order: a linger of 0 from a running level without demand goes on to HELD and,
through a linger of 0 at HOLD, to DISCHARGE; a settle time of 0 from cold ends the start at once; an abandoned start stops
DCLK (R77, R88). -/
theorem test_one_event_changes_the_outputs_in_order (at_ : DomState → Bool → Reach → State)
    (hs : at_ = fun st cold m => dom 1 (fun r =>
      { r with state := st, timer := 0, cold := cold, demandPending := true, leaseDemand := m, pgood := true
               setup := { r.setup with linger := 0, settle := 0 } }) up) :
    EventLaws (at_ .full false none) ∧ EventLaws (at_ .held true (some .slow))
    ∧ gives (exec (.demandChange 1) (at_ .full false none)) (fun t =>
        decide ((t.ctrl 1).state = .discharge
          ∧ t.changes = [.iso 1 true, .dclk 1 .stopped, .drst 1 true, .pen 1 false, .crst 1 true])) = true
    ∧ gives (exec (.demandChange 1) (at_ .held true (some .slow))) (fun t =>
        decide ((t.ctrl 1).state = .slow
          ∧ t.changes = [.dclk 1 (.divided 3), .drst 1 false, .iso 1 false, .crst 1 false])) = true
    ∧ gives (exec (.demandChange 1) (at_ (.starting .full) true (some .hold))) (fun t =>
        decide ((t.ctrl 1).state = .held ∧ t.changes = [.dclk 1 .stopped])) = true := by
  subst hs; decide +kernel

/-- A parent's loss stops its running child to HELD and tells the child's owner UNGRANTED; its child with need HOLD runs
on. The child's outputs change after the parent's, isolation before the clock (R88, R104, R105). -/
theorem test_fault_stops_the_child (s : State)
    (hs : s = dom 6 (fun r => { r with state := .slow, cold := false, setup := { r.setup with parent := some 5 } })
      (dom 5 (fun r => { r with state := .full, cold := false, parentPending := false, demandPending := false })
        (put 0 { own 1 2 with domain := 5 } (dom 4 (fun r => { r with pgood := true }) waiting)))) :
    EventLaws s
    ∧ gives (exec (.pgoodLoss ⟨4, false⟩) s) (fun t =>
        decide ((t.ctrl 5).state = .held ∧ (t.ctrl 5).cold = false ∧ (t.ctrl 6).state = .slow
          ∧ (t.queue 2).entries.map Entry.kind = [.ungranted]
          ∧ (t.queue 0).entries.map Entry.kind = [.domainFault]
          ∧ t.changes.filter (fun x => (outputOf x).isSome)
              = dropChanges 4 (s.ctrl 4).pins ++ [.iso 5 true, .dclk 5 .stopped])) = true := by
  subst hs; decide +kernel

theorem witness_SettleEndCompletesOrFaults (s s' : State)
    (hs : s = due (dom 0 (fun r => { r with state := .starting .full, timer := 1, pgood := true, leaseDemand := some .full })
      (put 0 (own 1 1) up)))
    (hs' : s' = due (dom 0 (fun r => { r with state := .starting .slow, timer := 1
                                              setup := { r.setup with monitor := false } }) up)) :
    (DomainLaws s ∧ TickComes s ∧ (s.ctrl 0).state = .starting .full ∧ (s.ctrl 0).timer = 1
      ∧ gives (exec (.settleEnd 0) s) (fun t =>
          decide ((t.ctrl 0).state = .full ∧ (t.queue 1).entries.map Entry.kind = [.granted]
            ∧ t.changes.take 2 = [.drst 0 false, .iso 0 false])) = true)
    ∧ DomainLaws s' ∧ TickComes s' ∧ (s'.ctrl 0).timer = 1
    ∧ gives (exec (.settleEnd 0) s') (fun t => decide ((t.ctrl 0).cause = .recheck)) = true := by
  subst hs hs'; decide +kernel

theorem witness_LingerEndDescendsToDemand (s s' : State)
    (hs : s = due (dom 0 (fun r => { r with state := .linger .full, timer := 1, cold := false, leaseDemand := some .hold }) up))
    (hs' : s' = due (dom 0 (fun r => { r with state := .linger .hold, timer := 1, cold := false }) up)) :
    (DomainLaws s ∧ TickComes s ∧ (s.ctrl 0).timer = 1
      ∧ gives (exec (.lingerEnd 0) s) (fun t =>
          decide ((t.ctrl 0).state = .held ∧ t.changes.take 2 = [.iso 0 true, .dclk 0 .stopped])) = true)
    ∧ DomainLaws s' ∧ TickComes s' ∧ (s'.ctrl 0).timer = 1
    ∧ gives (exec (.lingerEnd 0) s') (fun t =>
        decide ((t.ctrl 0).state = .discharge ∧ (t.ctrl 0).timer = 8
          ∧ t.changes.take 2 = [.drst 0 true, .pen 0 false])) = true := by
  subst hs hs'; decide +kernel

theorem witness_DischargeEndEntersOff (s s' : State) (hs : s = due (dom 0 (fun r => { r with state := .discharge, timer := 1 }) up))
    (hs' : s' = dom 0 (fun r => { r with leaseDemand := some .hold, pgood := true }) s) :
    (DomainLaws s ∧ TickComes s ∧ (s.ctrl 0).state = .discharge ∧ (s.ctrl 0).timer = 1
      ∧ gives (exec (.dischargeEnd 0) s) (fun t =>
          decide ((t.ctrl 0).state = .off ∧ (t.client 0).homeLostPending = 1)) = true)
    ∧ DomainLaws s' ∧ TickComes s'
    ∧ gives (exec (.dischargeEnd 0) s') (fun t => decide ((t.ctrl 0).state = .held ∧ t.changes = [.pen 0 true])) = true := by
  subst hs hs'; decide +kernel

theorem witness_SetupAndDivideWriteTheController (r r' : Request) (hr : r = req .domainSetup [5, 6, 2, 1, 0, 255, 1, 0])
    (hr' : r' = req .domainDivide [0, 8]) (s s' : State) (hs : s = ask 0 r up)
    (hs' : s' = ask 0 r' (dom 0 (fun r => { r with state := .slow, cold := false }) up)) :
    (Turn s 0 r .domainSetup ∧ (s.ctrl 5).state = .off ∧ s.leaseCount 5 = 0 ∧ s.closesCycle 5 (some 6) = false
      ∧ setupArgs r.body
          = some (5, { parent := some 6, need := .slow, ramp := 1, settle := 0, linger := 255, discharge := 1
                       monitor := false })
      ∧ DemandLaw s ∧ DerivedLaw s ∧ SettledLaw s ∧ (s.ctrl 5).demandPending = false
      ∧ gives (exec .domainSetup s) (fun t => decide ((t.ctrl 5).setup.parent = some 6)) = true)
    ∧ Turn s' 0 r' .domainDivide ∧ divideArgs r'.body = some (0, 8) ∧ OutputLaw s' ∧ DemandLaw s'
    ∧ gives (exec .domainDivide s') (fun t => decide (t.changes = [.dclk 0 (.divided 8)])) = true := by
  subst hr hr' hs hs'; decide +kernel

/-- The exception of that statement: D6 stands in OFF without leases and is counted for the demand of its child D7, its
demand change waiting; a SETUP that moves it from D4 to no parent takes that count from D4 at once (notes/assumptions
18). -/
theorem witness_SetupTakesTheCountFromTheOldParent (r : Request) (hr : r = req .domainSetup [6, 8, 2, 1, 0, 255, 1, 0])
    (waits : Ctrl → Ctrl) (hw : waits = fun r => { r with demandPending := true }) (s : State)
    (hs : s = ask 0 r (dom 4 waits (dom 6 waits (dom 7 waits (put 0 { own 1 1 with domain := 7 } up))))) :
    Turn s 0 r .domainSetup ∧ (setupArgs r.body).map (fun a => a.2.parent) = some none ∧ (s.ctrl 6).state = .off
    ∧ s.leaseCount 6 = 0 ∧ s.closesCycle 6 none = false ∧ DemandLaw s ∧ DerivedLaw s ∧ SettledLaw s
    ∧ (s.ctrl 6).setup.parent = some 4 ∧ (s.ctrl 6).counts = true ∧ (s.ctrl 4).derivedDemand = some .hold
    ∧ gives (exec .domainSetup s) (fun t =>
        decide ((t.ctrl 4).derivedDemand = none ∧ (t.ctrl 4).demandPending = true ∧ (t.ctrl 6).counts = false
          ∧ (t.ctrl 6).demandPending = true ∧ (t.ctrl 6).setup.parent = none)) = true := by
  subst hr hw hs; decide +kernel

theorem witness_ClearSendsFaultToDischarge (r : Request) (hr : r = req .domainClear [5]) (s : State)
    (hs : s = ask 0 r (dom 5 (fun r => { r with state := .fault, cause := .ramp }) up)) :
    Turn s 0 r .domainClear ∧ codeArgs 8 r.body = some (5 : Dom) ∧ (s.ctrl 5).state = .fault ∧ OutputLaw s
    ∧ ResetLineLaw s ∧ DemandLaw s ∧ ForestLaw s ∧ DerivedLaw s
    ∧ gives (exec .domainClear s) (fun t => decide ((t.ctrl 5).state = .discharge ∧ (t.ctrl 5).cause = .ramp ∧ t.changes = [])) = true := by
  subst hr hs; decide +kernel

/-! ## Clients and notices -/

theorem witness_ClientRequestsWriteTheRecord (r₁ r₂ r₃ : Request) (h₁ : r₁ = req .clientClearCause [1])
    (h₂ : r₂ = req .clientQuota [3, 64]) (h₃ : r₃ = req .superPass [3]) :
    (Turn (ask 0 r₁ up) 0 r₁ .clientClearCause ∧ DemandLaw up
      ∧ gives (exec .clientClearCause (ask 0 r₁ up)) (fun t => !(t.client 0).causes.partStart) = true)
    ∧ (Turn (ask 0 r₂ up) 0 r₂ .clientQuota ∧ quotaArgs r₂.body = some (3, 64)
      ∧ gives (exec .clientQuota (ask 0 r₂ up)) (fun t => decide ((t.client 3).quota = 64)) = true)
    ∧ Turn (ask 0 r₃ up) 0 r₃ .superPass ∧ codeArgs 4 r₃.body = some (3 : Client)
    ∧ gives (exec .superPass (ask 0 r₃ up)) (fun t => decide (t.supervisor = 3)) = true := by
  subst h₁ h₂ h₃; decide +kernel

theorem witness_OrderedRestartTearsTheClientDown (r : Request) (hr : r = req .clientRestart [1]) (s : State)
    (hs : s = ask 0 r (put 1 { own 2 0 with offer := some { target := 1, window := 2 } } (put 0 (own 1 1) up))) :
    LeaseLaw s ∧ TableLaw s ∧ Turn s 0 r .clientRestart ∧ codeArgs 4 r.body = some (1 : Client)
    ∧ gives (exec .clientRestart s) (fun t =>
        decide (t.leaseAt 0 = none ∧ t.leaseAt 1 = some (own 2 0) ∧ (t.client 1).causes.orderedRestart = true
          ∧ (t.queue 0).entries.map Entry.kind = [.offerEnded])) = true := by
  subst hr hs; decide +kernel

theorem witness_HomeLostTeardownClearsPortAndQueue (s : State)
    (hs : s = ask 2 (req .partIdent []) ((put 0 (own 1 2) up).setClient 2 { ClientRec.initial with homeLostPending := 1 })) :
    LeaseLaw s ∧ s.running = true ∧ 0 < (s.client 2).homeLostPending
    ∧ gives (exec (.homeLostTeardown 2) s) (fun t =>
        decide (t.port 2 = Port.initial ∧ t.leaseAt 0 = some (own 1 2) ∧ (t.client 2).causes.homeLost = true)) = true
    ∧ (rest .quiet 0 0 .none s).running = false ∧ still (.homeLostTeardown 2) (rest .quiet 0 0 .none s) = true := by
  subst hs; decide +kernel

theorem witness_PulseEndReleasesAWarmClient (s : State)
    (hs : s = rest .awake 0 31 .none
      (tidy ((running.setClient 0 { ClientRec.initial with pulse := 1 }).setClient 1 { ClientRec.initial with pulse := 1 }))) :
    DomainLaws s ∧ TickComes s ∧ (s.client 0).pulse = 1 ∧ (s.client 1).pulse = 1
    ∧ gives (exec (.restartPulseEnd 0) s) (fun t => decide (t.changes = [.crst 0 false])) = true
    ∧ gives (exec (.restartPulseEnd 1) s) (fun t => decide ((t.client 1).crst = true)) = true := by
  subst hs; decide +kernel

/-- A queue of fifteen takes one more; of sixteen drops it; a notice of a kind and subject that wait merges. -/
theorem witness_NoticesMergeAppendOrDrop (es : List Entry) (he : es = (List.range 15).map (note .granted)) (s s' : State)
    (hs : s = up.putQueue 0 es false) (hs' : s' = s.notify 0 .granted (.lease { slot := 9, gen := 0 }) (.level 0 .full)) :
    QueueLaw s ∧ QueueLaw s' ∧ (s'.queue 0).entries.length = 16 ∧ (s'.queue 0).overrun = false
    ∧ ((s'.notify 0 .granted (.lease { slot := 8, gen := 0 }) (.level 0 .full)).queue 0).overrun = true
    ∧ ((s'.notify 0 .granted (.lease { slot := 0, gen := 14 }) (.level 0 .full)).queue 0).entries[14]?
        = some { note .granted 14 with count := 2 } := by
  subst he hs hs'; decide +kernel

theorem witness_FetchRemovesTheHead (r : Request) (hr : r = req .noticeFetch []) (s : State)
    (hs : s = ask 0 r (up.putQueue 0 [note .granted 1] true)) :
    Turn s 0 r .noticeFetch ∧ DemandLaw s ∧ QueueLaw s
    ∧ gives (exec .noticeFetch s) (fun t => decide (t.queue 0 = { entries := [], overrun := true, attn := true })) = true
    ∧ gives (exec .noticeFetch (ask 0 r (up.putQueue 0 [] true))) (fun t =>
        decide (t.queue 0 = Queue.initial ∧ t.changes = [.attn 0 false])) = true := by
  subst hr hs; decide +kernel

/-! ## Rest, reset and part start -/

theorem witness_RestBeginsAndEnds (s s' : State) (hs : s = rest .restingPending 1 31 .none up)
    (hs' : s' = rest .waking 64 7 .none watched) :
    (s.resetLow = false ∧ s.rest.part = .restingPending ∧ s.rest.timer = 1 ∧ s.rest.due = .none ∧ s.rest.divider = 31
      ∧ s.restConditions = true
      ∧ gives (exec .restDelayEnd s) (fun t =>
          decide (t.rest = { part := .quiet, timer := 0, divider := 0, due := .sample })) = true)
    ∧ gives (exec .restDelayEnd
        (rest .restingPending 1 0 .tick { watched with wake := { watched.wake with lines := 0 } })) (fun t =>
          decide (t.rest = { part := .waking, timer := 64, divider := 0, due := .none })) = true
    ∧ s'.resetLow = false ∧ s'.rest.part = .waking
    ∧ gives (exec .wakingEnd s') (fun t =>
        decide (t.rest = { part := .restingPending, timer := 16, divider := 0, due := .none })) = true := by
  subst hs hs'; decide +kernel

theorem witness_ResetHoldsThePart :
    running.resetLow = false
    ∧ gives (exec .resetAssert running) (fun t =>
        decide (t.resetLow = true
          ∧ t.changes = [.iso 0 true, .dclk 0 .stopped, .drst 0 true, .pen 0 false, .crst 0 true])) = true
    ∧ State.reset.resetLow = true ∧ HeldLaw State.reset
    ∧ gives (exec (.pgoodPresent 3) State.reset) (fun t => (t.ctrl 3).pgood) = true
    ∧ still (.pgoodLoss ⟨3, true⟩) State.reset = true ∧ still .tick State.reset = true := by
  decide +kernel

/-- What part start leaves with each plan: the boot leases with their creation numbers and levels, and the adoption count. -/
theorem witness_PartStartInstallsThePlan (plan : Bool → Bool → List (Dom × Level × Nat) → Nat → Bool)
    (h : plan = fun plan1 plan0 leases window =>
      gives (exec (.partStart plan1 plan0) State.reset) (fun t =>
        decide (t.leases.map (fun x => (x.2.domain, x.2.level, x.2.creation)) = leases ∧ t.adoption = some window
          ∧ t.counter = leases.length ∧ (t.ctrl 0).state = .powering ∧ (t.ctrl 6).state = .off
          ∧ (t.ctrl 4).derivedDemand = (if plan1 && plan0 then some .slow else none)))) :
    State.reset.resetLow = true
    ∧ plan false false [(0, .full, 1)] 2048 = true
    ∧ plan false true [(0, .full, 1), (1, .full, 2)] 2048 = true
    ∧ plan true false [(0, .full, 1), (1, .full, 2), (2, .full, 3), (3, .full, 4), (4, .slow, 5)] 4096 = true
    ∧ plan true true [(0, .full, 1), (4, .slow, 2), (5, .full, 3)] 8192 = true := by
  subst h; decide +kernel

/-! ## Ports -/

/-- An answer that waits. -/
def waitingAnswer : Answer :=
  { status := .ok, flags := { priorDiscarded := false, busyDrop := false, torn := false, replay := false, attn := false }
    seqEcho := 3, kindEcho := 26, body := [1, 2] }

theorem witness_SendsFollowThePortState (s : State)
    (hs : s = up.setPort 0 { Port.initial with state := .ready waitingAnswer, saved := some waitingAnswer, memory := some 1 }) :
    s.resetLow = false
    ∧ gives (exec (.send 0 false [1, 25, 0]) s) (fun t => (t.port 0).torn) = true
    ∧ gives (exec (.send 0 false [1, 25, 0, 0xAB]) s) (fun t =>
        match (t.port 0).state with
        | .ready a => decide (a.status = .frameError ∧ a.flags.priorDiscarded = true)
        | .idle | .held _ => false) = true
    ∧ gives (exec (.send 0 false [1, 25, 0, 0xAA]) s) (fun t =>
        match (t.port 0).state with
        | .ready a => decide (a.body = [1, 2] ∧ a.flags.replay = true)
        | .idle | .held _ => false) = true
    ∧ gives (exec (.send 0 false [1, 25, 0, 0xAA]) (ask 0 (req .partIdent []) up)) (fun t => (t.port 0).busyDrop) = true
    ∧ gives (exec (.send 0 false [1, 25, 0, 0xAA]) up) (fun t =>
        decide ((t.port 0).state = .held (req .noticeFetch []))) = true := by
  subst hs; decide +kernel

theorem witness_CollectShiftsTheAnswerOut (s : State) (hs : s = up.setPort 0 { Port.initial with state := .ready waitingAnswer }) :
    s.resetLow = false ∧ (s.port 0).state = .ready waitingAnswer
    ∧ gives (exec (.collect 0 none 8) s) (fun t =>
        decide ((t.port 0).state = .idle ∧ (t.miso.get 0).take 8 = [0xFF, 0, 0, 3, 26, 2, 1, 2])) = true
    ∧ gives (exec (.collect 0 none 7) s) (fun t => decide ((t.port 0).state = .ready waitingAnswer)) = true
    ∧ gives (exec (.collect 1 none 3) (ask 1 (req .partIdent []) up)) (fun t =>
        decide (t.miso.get 1 = [0xFF, 4, 0, 1])) = true
    ∧ gives (exec (.collect 1 none 2) up) (fun t => decide (t.miso.get 1 = [0xFF, 5, 0])) = true
    ∧ gives (exec (.collect 0 (some 2) 4) s) (fun t =>
        decide ((t.port 0).state = .ready waitingAnswer ∧ t.miso.get 0 = [0xFF, 0, 0, 0xFF, 0xFF])) = true
    ∧ gives (exec (.collect 0 (some 9) 4) s) (fun t => decide (t.miso.get 0 = [0xFF, 0, 0, 3, 26])) = true := by
  subst hs; decide +kernel

theorem witness_IgnoredTransactionsSetTorn :
    up.resetLow = false ∧ ignorable [0x11] = true ∧ State.reset.resetLow = true
    ∧ gives (exec (.ignoredTransaction 0 false [0x11]) up) (fun t => decide ((t.port 0).torn = true ∧ t.miso.get 0 = [0xFF])) = true
    ∧ gives (exec (.ignoredTransaction 0 true [0x11]) up) (fun t => !(t.port 0).torn) = true
    ∧ gives (exec (.collect 0 (some 1) 2) State.reset) (fun t => decide (t.miso.get 0 = [0xFF, 0xFF, 0xFF])) = true := by
  decide +kernel

/-! ## The laws together -/

/-- One state with a lease, a watch and a running domain, which meets every law the step statements assume. -/
def lawful : State :=
  rest .awake 0 31 .none (put 0 (own 1 1) (dom 0 (fun r => { r with state := .full, cold := false }) watched))

theorem witness_StepsKeep_table :
    TableLaw lawful ∧ LeaseLaw lawful ∧ CreationLaw lawful ∧ QuotaLaw lawful ∧ ClaimLaw lawful ∧ DemandLaw lawful := by
  decide +kernel

theorem witness_StepsKeep_queues : QueueLaw lawful ∧ PortLaw lawful := by decide +kernel

theorem witness_StepsKeep_domains :
    HeldLaw lawful ∧ OutputLaw lawful ∧ EndLaw lawful ∧ ResetLineLaw lawful ∧ TreeLaw lawful ∧ ForestLaw lawful ∧ SettledLaw lawful ∧ DerivedLaw lawful := by
  decide +kernel

theorem witness_StepsKeep_rest : RestLaw lawful ∧ JudgedLaw lawful ∧ TimerLaw lawful ∧ HeldLaw lawful := by decide +kernel

theorem witness_StepsKeep_queues_asleep (s : State)
    (hs : s = rest .waking 64 0 .none ((up.notify 1 .domainFault (.domain 0) (.fault .recheck)).setClient 1
      { ClientRec.initial with homeLostPending := 1 })) :
    RestLaw s ∧ s.asleep = true ∧ (s.queue 1).attn = true
    ∧ gives (exec (.pgoodPresent 1) s) (fun t => decide ((t.ctrl 1).pgood = true ∧ t.queues = s.queues)) = true
    ∧ still (.homeLostTeardown 1) s = true := by
  subst hs; decide +kernel

theorem test_a_step_keeps_the_laws :
    gives (step { lawful with pending := [.tick] }) (fun t => decide (TableLaw t ∧ OutputLaw t)) = true := by
  decide +kernel

end Sys2Proof.Tests
end

/-! ## What a passage of a controller keeps -/

namespace Sys2Proof.Machine

/-- Only controllers, client records, queues and the record of output changes differ, and the lease demand of each
controller and the quota of each client stand: what every passage of a controller keeps (R75, R76). -/
structure Passed (s t : State) : Prop where
  frame : OnlyDomains s t
  leaseDemand : ∀ d, (t.ctrl d).leaseDemand = (s.ctrl d).leaseDemand
  quota : ∀ c, (t.client c).quota = (s.client c).quota

theorem Passed.refl (s : State) : Passed s s := ⟨.refl s, fun _ => rfl, fun _ => rfl⟩

theorem Passed.trans {s t u : State} (h : Passed s t) (k : Passed t u) : Passed s u :=
  ⟨h.frame.trans k.frame, fun d => (k.leaseDemand d).trans (h.leaseDemand d),
    fun c => (k.quota c).trans (h.quota c)⟩

theorem OnlyNotices.passed {s t : State} (h : OnlyNotices s t) : Passed s t := by
  refine ⟨h.domains, fun d => congrArg Ctrl.leaseDemand (h.ctrl d), fun c => ?_⟩
  unfold OnlyNotices at h
  rw [h]
  rfl

/-- A record of a controller changed with its lease demand kept. -/
theorem State.modCtrl_passed {f : Ctrl → Ctrl} (d : Dom) (s : State)
    (hf : ∀ r, (f r).leaseDemand = r.leaseDemand := by intro; rfl) : Passed s (s.modCtrl d f) := by
  refine ⟨s.modCtrl_frame d f, fun e => ?_, fun _ => rfl⟩
  rw [State.modCtrl_ctrl]
  split
  · next he => rw [he, hf]
  · rfl

/-- A client record changed with its quota kept. -/
theorem State.setClient_passed {r : ClientRec} (c : Client) (s : State)
    (h : r.quota = (s.client c).quota := by rfl) : Passed s (s.setClient c r) := by
  refine ⟨rfl, fun _ => rfl, fun o => ?_⟩
  rw [State.setClient_client]
  split
  · next ho => rw [ho, h]
  · rfl

variable (d : Dom) (s : State)

theorem State.drive_passed (p : Pins) (e : PinChange) : Passed s (s.drive d p e) := by
  refine ⟨s.drive_frame d p e, fun c => ?_, fun o => ?_⟩
  · rw [State.drive_ctrl]
    split
    · next hc => rw [hc]
    · rfl
  · unfold State.drive; split <;> rfl

theorem State.enter_passed (st : DomState) (n : Nat) : Passed s (s.enter d st n) :=
  State.modCtrl_passed d s
theorem State.setCold_passed (v : Bool) : Passed s (s.setCold d v) := State.modCtrl_passed d s
theorem State.driveIso_passed (v : Bool) : Passed s (s.driveIso d v) := s.drive_passed d ..
theorem State.drivePen_passed (v : Bool) : Passed s (s.drivePen d v) := s.drive_passed d ..
theorem State.driveDrst_passed (v : Bool) : Passed s (s.driveDrst d v) := s.drive_passed d ..
theorem State.driveDclk_passed (v : Dclk) : Passed s (s.driveDclk d v) := s.drive_passed d ..

theorem State.driveCrst_passed (c : Client) (v : Bool) (s : State) : Passed s (s.driveCrst c v) := by
  refine ⟨s.driveCrst_frame c v, fun e => congrArg Ctrl.leaseDemand (State.driveCrst_ctrl ..), fun o => ?_⟩
  rw [State.driveCrst_client]
  split
  · next ho => rw [ho]
  · rfl

theorem State.syncCrst_passed (c : Client) (s : State) : Passed s (s.syncCrst c) :=
  (State.setClient_passed ..).trans (State.driveCrst_passed ..)

theorem State.syncHome_passed : Passed s (s.syncHome d) := by
  unfold State.syncHome
  split
  · exact s.syncCrst_passed _
  · exact .refl s

theorem State.recomputeParent_passed : Passed s (s.recomputeParent d) := by
  refine ⟨s.recomputeParent_frame d, fun e => s.recomputeParent_leaseDemand d e, fun _ => ?_⟩
  unfold State.recomputeParent
  split <;> rfl

theorem State.tellChildren_passed (before : Reach) : Passed s (s.tellChildren d before) := by
  refine foldl_keeps _ Passed.refl Passed.trans _ (fun t c => ?_) _ _
  unfold State.tellChild
  split
  · exact State.modCtrl_passed c t
  · exact .refl t

theorem State.handNeighbours_passed (before : Reach) : Passed s (s.handNeighbours d before) :=
  (((s.tellChildren_passed d before).trans (State.modCtrl_passed d _)).trans
    (State.recomputeParent_passed d _)).trans (State.syncHome_passed d _)

theorem State.toDischarge_passed : Passed s (s.toDischarge d) :=
  (((s.enter_passed d _ _).trans (State.setCold_passed ..)).trans (State.driveDrst_passed ..)).trans
    (State.drivePen_passed ..)

theorem State.toLingerHold_passed : Passed s (s.toLingerHold d) := by
  unfold State.toLingerHold
  dsimp only
  split
  · exact (State.enter_passed ..).trans (State.toDischarge_passed ..)
  · exact State.enter_passed ..

theorem State.tellUngranted_passed (before : Reach) : Passed s (s.tellUngranted d before) :=
  foldl_keeps _ Passed.refl Passed.trans _ (fun _ _ => (State.notifyOwner_frame ..).passed) _ _

theorem State.stopOne_passed : Passed s (s.stopOne d) := by
  unfold State.stopOne
  dsimp only
  refine Passed.trans ?_ (State.handNeighbours_passed ..)
  have stop : Passed s ((((s.driveIso d true).driveDclk d .stopped).enter d .held 0).tellUngranted d
      (effLevel (s.ctrl d).state)) :=
    (((s.driveIso_passed d true).trans (State.driveDclk_passed ..)).trans (State.enter_passed ..)).trans
      (State.tellUngranted_passed ..)
  split
  · exact stop.trans (State.toLingerHold_passed ..)
  · exact stop

theorem State.stopChildren_passed (n : Nat) (d : Dom) (s : State) : Passed s (s.stopChildren n d) := by
  induction n generalizing d s with
  | zero => exact .refl s
  | succ n ih =>
    refine foldl_keeps _ Passed.refl Passed.trans _ (fun t c => ?_) _ _
    split
    · exact (t.stopOne_passed c).trans (ih c _)
    · exact .refl t

theorem State.raiseHomeLost_passed : Passed s (s.raiseHomeLost d) := by
  unfold State.raiseHomeLost
  split
  · exact State.setClient_passed ..
  · exact .refl s

theorem State.tellFault_passed (cause : FaultCause) : Passed s (s.tellFault d cause) :=
  (State.notify_frame ..).passed.trans
    (foldl_keeps _ Passed.refl Passed.trans _ (fun _ _ => (State.notifyOwner_frame ..).passed) _ _)

theorem State.dropOutputs_passed : Passed s (s.dropOutputs d) :=
  (((s.driveIso_passed d true).trans (State.driveDclk_passed ..)).trans (State.driveDrst_passed ..)).trans
    (State.drivePen_passed ..)

theorem State.toFault_passed (cause : FaultCause) : Passed s (s.toFault d cause) := by
  unfold State.toFault
  dsimp only
  refine Passed.trans ?_ (State.raiseHomeLost_passed ..)
  refine Passed.trans ?_ (State.stopChildren_passed ..)
  refine Passed.trans ?_ (State.tellFault_passed ..)
  exact (s.dropOutputs_passed d).trans (State.modCtrl_passed d _)

theorem State.completeStart_passed (run : Run) : Passed s (s.completeStart d run) := by
  unfold State.completeStart
  split
  · exact State.toFault_passed ..
  · exact (((s.driveDrst_passed d false).trans (State.setCold_passed ..)).trans (State.driveIso_passed ..)).trans
      (State.enter_passed ..)

theorem State.toStarting_passed (run : Run) : Passed s (s.toStarting d run) := by
  unfold State.toStarting
  dsimp only
  split
  · exact ((State.driveDclk_passed ..).trans (State.enter_passed ..)).trans (State.completeStart_passed ..)
  · exact (State.driveDclk_passed ..).trans (State.enter_passed ..)

theorem State.heldCompare_passed : Passed s (s.heldCompare d) := by
  unfold State.heldCompare
  split
  · exact s.toLingerHold_passed d
  · exact .refl s
  · split
    · exact s.toStarting_passed d _
    · exact .refl s
  · split
    · exact s.toStarting_passed d _
    · exact .refl s

theorem State.toHeld_passed : Passed s (s.toHeld d) := (State.enter_passed ..).trans (State.heldCompare_passed ..)

theorem State.tellGranted_passed (before : Reach) : Passed s (s.tellGranted d before) := by
  unfold State.tellGranted
  split
  · exact .refl s
  · exact foldl_keeps _ Passed.refl Passed.trans _ (fun _ _ => (State.notifyOwner_frame ..).passed) _ _

theorem State.endPowering_passed : Passed s (s.endPowering d) := by
  unfold State.endPowering
  dsimp only
  split
  · exact ((State.enter_passed ..).trans (State.tellGranted_passed ..)).trans (State.heldCompare_passed ..)
  · exact (State.enter_passed ..).trans (State.heldCompare_passed ..)

theorem State.toPowering_passed : Passed s (s.toPowering d) := by
  unfold State.toPowering
  dsimp only
  have up : Passed s (((s.drivePen d true).enter d .powering ((s.drivePen d true).ctrl d).setup.ramp).setCold
      d true) := ((State.drivePen_passed ..).trans (State.enter_passed ..)).trans (State.setCold_passed ..)
  split
  · exact up.trans (State.endPowering_passed ..)
  · exact up

theorem State.toOff_passed : Passed s (s.toOff d) := by
  unfold State.toOff
  dsimp only
  have off : Passed s (((s.enter d .off 0).setCold d true).raiseHomeLost d) :=
    ((State.enter_passed ..).trans (State.setCold_passed ..)).trans (State.raiseHomeLost_passed ..)
  split
  · exact off
  · exact off.trans (State.toPowering_passed ..)

theorem State.leaveRunning_passed : Passed s (s.leaveRunning d) :=
  ((s.driveIso_passed d true).trans (State.driveDclk_passed ..)).trans (State.toHeld_passed ..)

theorem State.toRun_passed (run : Run) : Passed s (s.toRun d run) :=
  (State.enter_passed ..).trans (State.driveDclk_passed ..)

theorem State.leaveLinger_passed (held : Level) : Passed s (s.leaveLinger d held) := by
  unfold State.leaveLinger
  split
  · exact State.toDischarge_passed ..
  · exact State.toHeld_passed ..
  · exact State.toRun_passed ..
  · exact State.toRun_passed ..
  · exact State.leaveRunning_passed ..
  · exact State.leaveRunning_passed ..

theorem State.toLingerRun_passed (run : Run) : Passed s (s.toLingerRun d run) := by
  unfold State.toLingerRun
  dsimp only
  split
  · exact (State.enter_passed ..).trans (State.leaveLinger_passed ..)
  · exact State.enter_passed ..

theorem State.demandStep_passed : Passed s (s.demandStep d) := by
  unfold State.demandStep
  split
  · exact .refl s
  · exact State.toPowering_passed ..
  · exact .refl s
  · exact State.heldCompare_passed ..
  · exact (State.modCtrl_passed d s).trans (State.driveDclk_passed ..)
  · exact (State.modCtrl_passed d s).trans (State.driveDclk_passed ..)
  · exact (State.driveDclk_passed ..).trans (State.toHeld_passed ..)
  · exact State.toRun_passed ..
  · exact .refl s
  · exact State.toLingerRun_passed ..
  · exact .refl s
  · exact State.toLingerRun_passed ..
  · split
    · exact State.leaveLinger_passed ..
    · exact .refl s
  · exact .refl s
  · exact .refl s

theorem State.parentStep_passed : Passed s (s.parentStep d) := by
  unfold State.parentStep
  split
  · exact s.heldCompare_passed d
  · exact .refl s

theorem State.pgoodStep_passed : Passed s (s.pgoodStep d) := by
  unfold State.pgoodStep
  split
  · exact s.endPowering_passed d
  · exact .refl s

theorem State.lossStep_passed : Passed s (s.lossStep d) := by
  unfold State.lossStep
  split
  · exact s.toFault_passed d _
  · exact .refl s

theorem State.endStep_passed : Passed s (s.endStep d) := by
  unfold State.endStep
  split
  · split
    · exact .refl s
    · exact s.toFault_passed d _
  · exact s.completeStart_passed d _
  · exact s.leaveLinger_passed d _
  · exact s.toOff_passed d
  all_goals exact .refl s

/-- A controller event keeps what its passage keeps (R76). -/
theorem State.event_passed {passage : State → State} (h : ∀ s, Passed s (passage s)) :
    Passed s (s.event d passage) := by
  unfold State.event
  dsimp only
  split
  · exact (h s).trans (State.handNeighbours_passed ..)
  · exact ((h s).trans (State.tellGranted_passed ..)).trans (State.handNeighbours_passed ..)

/-- The timed steps of a tick keep what a passage keeps (R77). -/
theorem State.endTimers_passed (order : List Dom) : Passed s (s.endTimers order) := by
  refine foldl_keeps _ Passed.refl Passed.trans _ (fun t d => ?_) _ _
  unfold State.endTimer
  split
  · exact t.event_passed d (State.endStep_passed d)
  · exact .refl t

/-- The restart pulses of a tick keep what a passage keeps (R141). -/
theorem State.tickPulses_passed : Passed s s.tickPulses := by
  refine foldl_keeps _ Passed.refl Passed.trans _ (fun t c => ?_) _ _
  unfold State.tickPulse
  dsimp only
  split
  · exact (State.setClient_passed ..).trans (State.syncCrst_passed ..)
  · exact State.setClient_passed ..

end Sys2Proof.Machine

/-! ## What a request does -/

namespace Sys2Proof.Machine

open Sys2Proof.Statement

/-! ### The bodies' ranges -/

theorem number16_le (hi lo : Byte) : number16 hi lo ≤ 65535 := by
  have := hi.isLt
  have := lo.isLt
  unfold number16
  omega

theorem takeArgs_term {body : List Byte} {a : Template} (h : takeArgs body = some a) : a.term ≤ 65535 := by
  unfold takeArgs at h
  split at h
  · simp only [Option.bind_eq_bind, Option.bind_eq_some_iff, Option.some.injEq] at h
    obtain ⟨_, -, _, -, _, -, _, -, rfl⟩ := h
    exact number16_le ..
  · cases h

theorem renewArgs_term {body : List Byte} {h : Handle} {n : Nat} (e : renewArgs body = some (h, some n)) :
    n ≤ 65535 := by
  unfold renewArgs at e
  split at e
  · simp only [Option.bind_eq_bind, Option.bind_eq_some_iff, Option.some.injEq, Prod.mk.injEq] at e
    obtain ⟨present, -, -, hn⟩ := e
    cases present
    · simp at hn
    · simp only [if_true, Option.some.injEq] at hn
      exact hn ▸ number16_le ..
  · cases e

theorem offerArgs_window {body : List Byte} {h : Handle} {target : Client} {w : Nat}
    (e : offerArgs body = some (h, target, w)) : w ≤ 4095 := by
  unfold offerArgs at e
  split at e
  · simp only [Option.bind_eq_bind, Option.bind_eq_some_iff] at e
    obtain ⟨_, -, e⟩ := e
    split at e
    · next hw =>
      simp only [Option.some.injEq, Prod.mk.injEq] at e
      exact e.2.2 ▸ hw.2
    · cases e
  · cases e

theorem adoptArgs_term {body : List Byte} {h : Handle} {a : AdoptTerms} (e : adoptArgs body = some (h, a)) :
    a.term ≤ 65535 := by
  unfold adoptArgs at e
  split at e
  · simp only [Option.bind_eq_bind, Option.bind_eq_some_iff, Option.some.injEq, Prod.mk.injEq] at e
    obtain ⟨_, -, _, -, -, rfl⟩ := e
    exact number16_le ..
  · cases e

theorem watchSetArgs_term {body : List Byte} {a : WatchArgs} (h : watchSetArgs body = some a) :
    a.template.term ≤ 65535 := by
  unfold watchSetArgs at h
  split at h
  · simp only [Option.bind_eq_bind, Option.bind_eq_some_iff, Option.some.injEq] at h
    obtain ⟨_, -, _, -, _, -, _, -, _, -, _, -, _, -, rfl⟩ := h
    exact number16_le ..
  · cases h

theorem quotaArgs_range {body : List Byte} {c : Client} {q : Nat} (h : quotaArgs body = some (c, q)) :
    1 ≤ q ∧ q ≤ 64 := by
  unfold quotaArgs at h
  split at h
  · simp only [Option.bind_eq_bind, Option.bind_eq_some_iff] at h
    obtain ⟨_, -, h⟩ := h
    split at h
    · next hq =>
      simp only [Option.some.injEq, Prod.mk.injEq] at h
      exact h.2 ▸ hq
    · cases h
  · cases h

/-! ### The rules -/

/-- The rule of a request kind. -/
def ruleOf : ReqKind → Client → List Byte → State → Reply
  | .leaseTake => leaseTakeRule
  | .leaseRenew => leaseRenewRule
  | .leaseAlter => leaseAlterRule
  | .leaseRelease => leaseReleaseRule
  | .leaseRead => leaseReadRule
  | .leaseList => leaseListRule
  | .leaseRevoke => leaseRevokeRule
  | .leaseOffer => leaseOfferRule
  | .leaseWithdraw => leaseWithdrawRule
  | .leaseAccept => leaseAcceptRule
  | .leaseAdopt => leaseAdoptRule
  | .watchSet => watchSetRule
  | .watchDrop => watchDropRule
  | .watchRead => watchReadRule
  | .linesRead => linesReadRule
  | .domainRead => domainReadRule
  | .domainSetup => domainSetupRule
  | .domainDivide => domainDivideRule
  | .domainClear => domainClearRule
  | .clientStatus => clientStatusRule
  | .clientClearCause => clientClearCauseRule
  | .clientQuota => clientQuotaRule
  | .clientRestart => clientRestartRule
  | .superPass => superPassRule
  | .noticeFetch => noticeFetchRule
  | .partIdent => partIdentRule

/-- A take command is the take of its kind by its rule. -/
theorem exec_commandOf (k : ReqKind) (s : State) : exec (commandOf k) s = s.take k (ruleOf k) := by cases k <;> rfl

/-- The state that an accepted request of port `p` leaves, kind by kind, with the checks it has passed. -/
inductive Granted (s : State) (p : Client) : ReqKind → State → Prop
  | leaseTake {i : SlotNo} {a : Template} (quota : s.charge p < (s.client p).quota) (free : s.freeSlot = some i)
      (term : a.term ≤ 65535) : Granted s p .leaseTake (s.create i (.client p) a none)
  | leaseRenew {h : Handle} {l : Lease} {nt : Option Nat} (named : s.named h = some l) (owner : l.owner = .client p)
      (some_term : ¬ (nt = none ∧ l.term = 0)) (term : ∀ n, nt = some n → n ≤ 65535) :
      Granted s p .leaseRenew (s.putLease h.slot (l.renewed nt))
  | leaseAlter {h : Handle} {l : Lease} {level : Level} (named : s.named h = some l) (owner : l.owner = .client p) :
      Granted s p .leaseAlter (s.putLease h.slot { l with level := level })
  | leaseRelease {h : Handle} {l : Lease} (named : s.named h = some l) (owner : l.owner = .client p) :
      Granted s p .leaseRelease (s.retire h.slot)
  | leaseRevoke {h : Handle} {l : Lease} (role : s.supervisor = p) (named : s.named h = some l) :
      Granted s p .leaseRevoke
        ((s.retire h.slot).dropAdoption.notifyOwner l.owner .revoked (.lease h) (.level l.domain l.level))
  | leaseOffer {h : Handle} {l : Lease} {target : Client} {window : Nat} (named : s.named h = some l)
      (owner : l.owner = .client p) (other : target ≠ p) (unoffered : l.offer = none) (unbound : l.binding = none)
      (range : window ≤ 4095) :
      Granted s p .leaseOffer
        ((s.putLease h.slot { l with offer := some { target := target, window := window } }).notify
          target .offered (.lease h) (.offered p l.domain l.level window))
  | leaseWithdraw {h : Handle} {l : Lease} (named : s.named h = some l) (owner : l.owner = .client p) :
      Granted s p .leaseWithdraw (s.putLease h.slot { l with offer := none })
  | leaseAccept {h : Handle} {l : Lease} (named : s.named h = some l) (offered : l.offer.map Offer.target = some p)
      (quota : s.charge p < (s.client p).quota) :
      Granted s p .leaseAccept
        ((s.putLease h.slot (l.accepted p)).notifyOwner l.owner .offerEnded (.lease h) (.ended p .accepted))
  | leaseAdopt {h : Handle} {l : Lease} {a : AdoptTerms} (named : s.named h = some l) (boot : l.owner = .boot)
      (quota : s.charge p < (s.client p).quota) (term : a.term ≤ 65535) :
      Granted s p .leaseAdopt (s.putLease h.slot (l.adopted p a)).dropAdoption
  | watchSet {a : WatchArgs} {w : WatchId} {i : SlotNo} (room : s.freeWatch = some w)
      (quota : s.charge p < (s.client p).quota) (free : s.freeSlot = some i) (term : a.template.term ≤ 65535) :
      Granted s p .watchSet
        ((s.setSlot i { gen := (s.slot i).gen, cond := .reserved w }).setWatch w (some (newWatch s.wake p a i)))
  | watchDrop {w : WatchId} {r : Watch} (held : s.watch w = some r) (owner : r.owner = p) :
      Granted s p .watchDrop (s.dropWatch w r)
  | domainSetup {d : Dom} {x : Setup} (role : s.supervisor = p) (off : (s.ctrl d).state = .off)
      (unleased : s.leaseCount d = 0) (forest : s.closesCycle d x.parent = false) :
      Granted s p .domainSetup (s.putSetup d x)
  | domainDivide {d : Dom} {k : Nat} (role : s.supervisor = p) : Granted s p .domainDivide (s.divide d k)
  | domainClear {d : Dom} (role : s.supervisor = p) (faulted : (s.ctrl d).state = .fault) :
      Granted s p .domainClear (s.event d (State.toDischarge d))
  | clientClearCause (f : CauseFlags → CauseFlags) : Granted s p .clientClearCause (s.addCause p f)
  | clientQuota {c : Client} {q : Nat} (role : s.supervisor = p) (charge : s.charge c ≤ q) (range : 1 ≤ q ∧ q ≤ 64) :
      Granted s p .clientQuota (s.setClient c { s.client c with quota := q })
  | clientRestart {c : Client} (f : CauseFlags → CauseFlags) (role : s.supervisor = p) (other : c ≠ p) :
      Granted s p .clientRestart (s.restart c f)
  | superPass {c : Client} (role : s.supervisor = p) (other : c ≠ p) :
      Granted s p .superPass { s with supervisor := c }
  | noticeFetch {e : Entry} {rest : List Entry} (head : (s.queue p).entries = e :: rest) :
      Granted s p .noticeFetch (s.putQueue p rest (s.queue p).overrun)
  | read {k : ReqKind}
      (kind : k ∈ [.leaseRead, .leaseList, .watchRead, .linesRead, .domainRead, .clientStatus, .partIdent]) :
      Granted s p k s

/-- What a refusal leaves: the state as it was, but for the marker that OVERRUN clears (R24, R158). -/
def afterRefusal (s : State) (p : Client) (status : Status) : State :=
  if status = .overrun then s.putQueue p [] false else s

/-- A reply agrees with the status that the checks give: refused with it, or answered OK and granted. -/
def Decides (s : State) (p : Client) (k : ReqKind) : Option Status → Reply → Prop
  | some status, y => y = refuse status (afterRefusal s p status)
  | none, y => y.status = .ok ∧ Granted s p k y.state

section Decided

variable {s : State} {p : Client} {k : ReqKind} {r : Request}

theorem decides_refuse {status : Status} (h : status ≠ .overrun) : Decides s p k (some status) (refuse status s) := by
  simp [Decides, afterRefusal, h]

theorem decides_accept {body : List Byte} {t : State} (h : Granted s p k t) : Decides s p k none (accept body t) :=
  ⟨rfl, h⟩

/-- The quota check, on both sides (R13). -/
theorem decides_quota {x : Option Status} {y : Reply}
    (h : s.charge p < (s.client p).quota → Decides s p k x y) :
    Decides s p k (if s.charge p < (s.client p).quota then x else some .quota) (withQuota p s y) := by
  unfold withQuota
  split
  · next hq => exact h hq
  · exact decides_refuse (by decide)

/-- The check of the supervisor role, on both sides (R151). -/
theorem decides_role {x : Option Status} {y : Reply} (h : s.supervisor = p → Decides s p k x y) :
    Decides s p k (if s.supervisor = p then x else some .notSupervisor) (withRole p s y) := by
  unfold withRole
  split
  · next hr => exact h hr
  · exact decides_refuse (by decide)

/-- The owner check, on both sides (R25). -/
theorem decides_owner {l : Lease} {x : Option Status} {y : Reply} (h : l.owner = .client p → Decides s p k x y) :
    Decides s p k (if l.owner = .client p then x else some .notOwner)
      (if l.owner = .client p then y else refuse .notOwner s) := by
  split
  · next ho => exact h ho
  · exact decides_refuse (by decide)

/-- The free-slot check (R3). -/
theorem decides_free {y : SlotNo → Reply} (h : ∀ i, s.freeSlot = some i → Decides s p k none (y i)) :
    Decides s p k (if ∃ i, (s.slot i).cond = .free then none else some .tableFull)
      (match s.freeSlot with | none => refuse .tableFull s | some i => y i) := by
  cases e : s.freeSlot with
  | none =>
    have full : ¬ ∃ i, (s.slot i).cond = .free := by simpa using State.freeSlot_none.1 e
    rw [if_neg full]
    exact decides_refuse (by decide)
  | some i =>
    rw [if_pos ⟨i, (State.freeSlot_iff.1 e).1⟩]
    exact h i e

theorem leaseTake_decides (hk : r.kind = .leaseTake) :
    Decides s p .leaseTake (refusal s p r) (leaseTakeRule p r.body s) := by
  simp only [refusal, hk, leaseTakeRule]
  cases e : takeArgs r.body with
  | none => exact decides_refuse (by decide)
  | some a =>
    exact decides_quota fun hq => decides_free fun i hi => decides_accept (.leaseTake hq hi (takeArgs_term e))

theorem leaseRenew_decides (hk : r.kind = .leaseRenew) :
    Decides s p .leaseRenew (refusal s p r) (leaseRenewRule p r.body s) := by
  simp only [refusal, hk, leaseRenewRule]
  cases e : renewArgs r.body with
  | none => exact decides_refuse (by decide)
  | some a =>
    obtain ⟨h, nt⟩ := a
    simp only [withForm_some, withOwned, withLease]
    cases hn : s.named h with
    | none => exact decides_refuse (by decide)
    | some l =>
      refine decides_owner fun ho => ?_
      split
      · exact decides_refuse (by decide)
      · next hterm => exact decides_accept (.leaseRenew hn ho hterm fun n hn => renewArgs_term (hn ▸ e))

theorem leaseAlter_decides (hk : r.kind = .leaseAlter) :
    Decides s p .leaseAlter (refusal s p r) (leaseAlterRule p r.body s) := by
  simp only [refusal, hk, leaseAlterRule]
  cases alterArgs r.body with
  | none => exact decides_refuse (by decide)
  | some a =>
    obtain ⟨h, level⟩ := a
    simp only [withForm_some, withOwned, withLease]
    cases hn : s.named h with
    | none => exact decides_refuse (by decide)
    | some l => exact decides_owner fun ho => decides_accept (.leaseAlter hn ho)

theorem leaseRelease_decides (hk : r.kind = .leaseRelease) :
    Decides s p .leaseRelease (refusal s p r) (leaseReleaseRule p r.body s) := by
  simp only [refusal, hk, leaseReleaseRule]
  cases handleArgs r.body with
  | none => exact decides_refuse (by decide)
  | some h =>
    simp only [withForm_some, withOwned, withLease]
    cases hn : s.named h with
    | none => exact decides_refuse (by decide)
    | some l => exact decides_owner fun ho => decides_accept (.leaseRelease hn ho)

theorem leaseRead_decides (hk : r.kind = .leaseRead) :
    Decides s p .leaseRead (refusal s p r) (leaseReadRule p r.body s) := by
  simp only [refusal, hk, leaseReadRule]
  cases handleArgs r.body with
  | none => exact decides_refuse (by decide)
  | some h =>
    simp only [withForm_some, withLease]
    cases s.named h with
    | none => exact decides_refuse (by decide)
    | some l => exact decides_accept (.read (by decide))

theorem leaseList_decides (hk : r.kind = .leaseList) :
    Decides s p .leaseList (refusal s p r) (leaseListRule p r.body s) := by
  simp only [refusal, hk, leaseListRule]
  cases listArgs r.body with
  | none => exact decides_refuse (by decide)
  | some a => exact decides_accept (.read (by decide))

theorem leaseRevoke_decides (hk : r.kind = .leaseRevoke) :
    Decides s p .leaseRevoke (refusal s p r) (leaseRevokeRule p r.body s) := by
  simp only [refusal, hk, leaseRevokeRule]
  cases handleArgs r.body with
  | none => exact decides_refuse (by decide)
  | some h =>
    refine decides_role fun hr => ?_
    simp only [withLease]
    cases hn : s.named h with
    | none => exact decides_refuse (by decide)
    | some l => exact decides_accept (.leaseRevoke hr hn)

theorem leaseOffer_decides (hk : r.kind = .leaseOffer) :
    Decides s p .leaseOffer (refusal s p r) (leaseOfferRule p r.body s) := by
  simp only [refusal, hk, leaseOfferRule]
  cases e : offerArgs r.body with
  | none => exact decides_refuse (by decide)
  | some a =>
    obtain ⟨h, target, window⟩ := a
    simp only [withForm_some, withOwned, withLease]
    cases hn : s.named h with
    | none => exact decides_refuse (by decide)
    | some l =>
      refine decides_owner fun ho => ?_
      by_cases self : target = p
      · simpa [self] using decides_refuse (by decide)
      cases hf : l.offer with
      | some o => simpa [self] using decides_refuse (by decide)
      | none =>
        cases hb : l.binding with
        | some w => simpa [self] using decides_refuse (by decide)
        | none => simpa [self, hb] using decides_accept (.leaseOffer hn ho self hf hb (offerArgs_window e))

theorem leaseWithdraw_decides (hk : r.kind = .leaseWithdraw) :
    Decides s p .leaseWithdraw (refusal s p r) (leaseWithdrawRule p r.body s) := by
  simp only [refusal, hk, leaseWithdrawRule]
  cases handleArgs r.body with
  | none => exact decides_refuse (by decide)
  | some h =>
    simp only [withForm_some, withOwned, withLease]
    cases hn : s.named h with
    | none => exact decides_refuse (by decide)
    | some l =>
      refine decides_owner fun ho => ?_
      cases l.offer with
      | none => exact decides_refuse (by decide)
      | some o => exact decides_accept (.leaseWithdraw hn ho)

theorem leaseAccept_decides (hk : r.kind = .leaseAccept) :
    Decides s p .leaseAccept (refusal s p r) (leaseAcceptRule p r.body s) := by
  simp only [refusal, hk, leaseAcceptRule]
  cases handleArgs r.body with
  | none => exact decides_refuse (by decide)
  | some h =>
    simp only [withForm_some, withLease]
    cases hn : s.named h with
    | none => exact decides_refuse (by decide)
    | some l =>
      by_cases ho : l.offer.map Offer.target = some p
      · simp only [ho, if_true]
        exact decides_quota fun hq => decides_accept (.leaseAccept hn ho hq)
      · simp only [ho, if_false]
        exact decides_refuse (by decide)

theorem leaseAdopt_decides (hk : r.kind = .leaseAdopt) :
    Decides s p .leaseAdopt (refusal s p r) (leaseAdoptRule p r.body s) := by
  simp only [refusal, hk, leaseAdoptRule]
  cases e : adoptArgs r.body with
  | none => exact decides_refuse (by decide)
  | some a =>
    obtain ⟨h, terms⟩ := a
    simp only [withForm_some, withLease]
    cases hn : s.named h with
    | none => exact decides_refuse (by decide)
    | some l =>
      by_cases hb : l.owner = .boot
      · simp only [hb, if_true]
        exact decides_quota fun hq => decides_accept (.leaseAdopt hn hb hq (adoptArgs_term e))
      · simp only [hb, if_false]
        exact decides_refuse (by decide)

theorem watchSet_decides (hk : r.kind = .watchSet) :
    Decides s p .watchSet (refusal s p r) (watchSetRule p r.body s) := by
  simp only [refusal, hk, watchSetRule]
  cases e : watchSetArgs r.body with
  | none => exact decides_refuse (by decide)
  | some a =>
    simp only [withForm_some]
    cases hw : s.freeWatch with
    | none =>
      have full : ¬ ∃ w, s.watch w = none := by simpa using State.freeWatch_none.1 hw
      simp only [full, if_false]
      exact decides_refuse (by decide)
    | some w =>
      have room : ∃ w, s.watch w = none := ⟨w, (State.freeWatch_iff.1 hw).1⟩
      simp only [room, if_true]
      exact decides_quota fun hq => decides_free fun i hi =>
        decides_accept (.watchSet hw hq hi (watchSetArgs_term e))

theorem watchDrop_decides (hk : r.kind = .watchDrop) :
    Decides s p .watchDrop (refusal s p r) (watchDropRule p r.body s) := by
  simp only [refusal, hk, watchDropRule]
  cases codeArgs 16 r.body with
  | none => exact decides_refuse (by decide)
  | some w =>
    simp only [withForm_some]
    cases hw : s.watch w with
    | none => exact decides_refuse (by decide)
    | some x =>
      by_cases ho : x.owner = p
      · simp only [ho, if_true]
        exact decides_accept (.watchDrop hw ho)
      · simp only [ho, if_false]
        exact decides_refuse (by decide)

theorem watchRead_decides (hk : r.kind = .watchRead) :
    Decides s p .watchRead (refusal s p r) (watchReadRule p r.body s) := by
  simp only [refusal, hk, watchReadRule]
  cases codeArgs 16 r.body with
  | none => exact decides_refuse (by decide)
  | some w =>
    simp only [withForm_some]
    cases s.watch w with
    | none => exact decides_refuse (by decide)
    | some x => exact decides_accept (.read (by decide))

theorem domainRead_decides (hk : r.kind = .domainRead) :
    Decides s p .domainRead (refusal s p r) (domainReadRule p r.body s) := by
  simp only [refusal, hk, domainReadRule]
  cases codeArgs 8 r.body with
  | none => exact decides_refuse (by decide)
  | some d => exact decides_accept (.read (by decide))

theorem domainSetup_decides (hk : r.kind = .domainSetup) :
    Decides s p .domainSetup (refusal s p r) (domainSetupRule p r.body s) := by
  simp only [refusal, hk, domainSetupRule]
  cases setupArgs r.body with
  | none => exact decides_refuse (by decide)
  | some a =>
    obtain ⟨d, x⟩ := a
    refine decides_role fun hr => ?_
    by_cases busy : (s.ctrl d).state ≠ .off ∨ s.leaseCount d ≠ 0
    · rw [if_pos busy, if_neg (by tauto)]
      exact decides_refuse (by decide)
    · have idle : (s.ctrl d).state = .off ∧ s.leaseCount d = 0 := by tauto
      rw [if_neg busy, if_pos idle]
      cases hc : s.closesCycle d x.parent with
      | true => exact decides_refuse (by decide)
      | false => exact decides_accept (.domainSetup hr idle.1 idle.2 hc)

theorem domainDivide_decides (hk : r.kind = .domainDivide) :
    Decides s p .domainDivide (refusal s p r) (domainDivideRule p r.body s) := by
  simp only [refusal, hk, domainDivideRule]
  cases divideArgs r.body with
  | none => exact decides_refuse (by decide)
  | some a => exact decides_role fun hr => decides_accept (.domainDivide hr)

theorem domainClear_decides (hk : r.kind = .domainClear) :
    Decides s p .domainClear (refusal s p r) (domainClearRule p r.body s) := by
  simp only [refusal, hk, domainClearRule]
  cases codeArgs 8 r.body with
  | none => exact decides_refuse (by decide)
  | some d =>
    refine decides_role fun hr => ?_
    split
    · next hf => exact decides_accept (.domainClear hr hf)
    · exact decides_refuse (by decide)

theorem clientQuota_decides (hk : r.kind = .clientQuota) :
    Decides s p .clientQuota (refusal s p r) (clientQuotaRule p r.body s) := by
  simp only [refusal, hk, clientQuotaRule]
  cases e : quotaArgs r.body with
  | none => exact decides_refuse (by decide)
  | some a =>
    obtain ⟨c, q⟩ := a
    refine decides_role fun hr => ?_
    by_cases hq : s.charge c ≤ q
    · rw [if_neg (Nat.not_lt.2 hq), if_pos hq]
      exact decides_accept (.clientQuota hr hq (quotaArgs_range e))
    · rw [if_pos (Nat.not_le.1 hq), if_neg hq]
      exact decides_refuse (by decide)

theorem clientRestart_decides (hk : r.kind = .clientRestart) :
    Decides s p .clientRestart (refusal s p r) (clientRestartRule p r.body s) := by
  simp only [refusal, hk, clientRestartRule]
  cases codeArgs 4 r.body with
  | none => exact decides_refuse (by decide)
  | some c =>
    refine decides_role fun hr => ?_
    split
    · exact decides_refuse (by decide)
    · next hc => exact decides_accept (.clientRestart _ hr hc)

theorem superPass_decides (hk : r.kind = .superPass) :
    Decides s p .superPass (refusal s p r) (superPassRule p r.body s) := by
  simp only [refusal, hk, superPassRule]
  cases codeArgs 4 r.body with
  | none => exact decides_refuse (by decide)
  | some c =>
    refine decides_role fun hr => ?_
    split
    · exact decides_refuse (by decide)
    · next hc => exact decides_accept (.superPass hr hc)

theorem noticeFetch_decides (hk : r.kind = .noticeFetch) :
    Decides s p .noticeFetch (refusal s p r) (noticeFetchRule p r.body s) := by
  simp only [refusal, hk, noticeFetchRule]
  cases e : (s.queue p).entries with
  | cons x rest => exact decides_accept (.noticeFetch e)
  | nil =>
    cases (s.queue p).overrun with
    | true => rfl
    | false => exact decides_refuse (by decide)

end Decided

/-- Every rule decides as the checks of its request do (R24). -/
theorem ruleOf_decides (s : State) (p : Client) (r : Request) :
    Decides s p r.kind (refusal s p r) (ruleOf r.kind p r.body s) := by
  cases hk : r.kind with
  | leaseTake => exact leaseTake_decides hk
  | leaseRenew => exact leaseRenew_decides hk
  | leaseAlter => exact leaseAlter_decides hk
  | leaseRelease => exact leaseRelease_decides hk
  | leaseRead => exact leaseRead_decides hk
  | leaseList => exact leaseList_decides hk
  | leaseRevoke => exact leaseRevoke_decides hk
  | leaseOffer => exact leaseOffer_decides hk
  | leaseWithdraw => exact leaseWithdraw_decides hk
  | leaseAccept => exact leaseAccept_decides hk
  | leaseAdopt => exact leaseAdopt_decides hk
  | watchSet => exact watchSet_decides hk
  | watchDrop => exact watchDrop_decides hk
  | watchRead => exact watchRead_decides hk
  | domainRead => exact domainRead_decides hk
  | domainSetup => exact domainSetup_decides hk
  | domainDivide => exact domainDivide_decides hk
  | domainClear => exact domainClear_decides hk
  | clientQuota => exact clientQuota_decides hk
  | clientRestart => exact clientRestart_decides hk
  | superPass => exact superPass_decides hk
  | noticeFetch => exact noticeFetch_decides hk
  | clientClearCause =>
    simp only [refusal, hk]
    exact decides_accept (.clientClearCause _)
  | linesRead | clientStatus | partIdent =>
    simp only [refusal, hk]
    exact decides_accept (.read (by decide))

/-- A taken request is refused, with the state left as it was but for OVERRUN, or granted. -/
theorem ruleOf_cases (s : State) (p : Client) (r : Request) :
    (∃ status, ruleOf r.kind p r.body s = refuse status (afterRefusal s p status))
      ∨ Granted s p r.kind (ruleOf r.kind p r.body s).state := by
  have h := ruleOf_decides s p r
  cases e : refusal s p r with
  | some status => exact .inl ⟨status, by rw [e] at h; exact h⟩
  | none => rw [e] at h; exact .inr h.2

end Sys2Proof.Machine

/-! ## A taken request: its answer, and what it leaves of the ports -/

namespace Sys2Proof.Machine

open Sys2Proof.Statement

/-! ### The ports and the supervisor role -/

/-- Every port and the supervisor role are as they were. -/
structure Undisturbed (s t : State) : Prop where
  ports : t.ports = s.ports
  supervisor : t.supervisor = s.supervisor

theorem Undisturbed.refl (s : State) : Undisturbed s s := ⟨rfl, rfl⟩
theorem Undisturbed.trans {s t u : State} (h : Undisturbed s t) (k : Undisturbed t u) : Undisturbed s u :=
  ⟨k.ports.trans h.ports, k.supervisor.trans h.supervisor⟩

theorem OnlyNotices.undisturbed {s t : State} (h : OnlyNotices s t) : Undisturbed s t := by
  unfold OnlyNotices at h; rw [h]; exact ⟨rfl, rfl⟩
theorem OnlyTable.undisturbed {s t : State} (h : OnlyTable s t) : Undisturbed s t := by
  unfold OnlyTable at h; rw [h]; exact ⟨rfl, rfl⟩
theorem OnlyDomains.undisturbed {s t : State} (h : OnlyDomains s t) : Undisturbed s t := by
  unfold OnlyDomains at h; rw [h]; exact ⟨rfl, rfl⟩

theorem Undisturbed.port {s t : State} (h : Undisturbed s t) (c : Client) : t.port c = s.port c := by
  simp only [State.port, h.ports]

theorem State.putLease_undisturbed (i : SlotNo) (l : Lease) (s : State) : Undisturbed s (s.putLease i l) := ⟨rfl, rfl⟩
theorem State.addCause_undisturbed (c : Client) (f : CauseFlags → CauseFlags) (s : State) :
    Undisturbed s (s.addCause c f) := ⟨rfl, rfl⟩
theorem State.setClient_undisturbed (c : Client) (r : ClientRec) (s : State) : Undisturbed s (s.setClient c r) :=
  ⟨rfl, rfl⟩

theorem State.create_undisturbed (i : SlotNo) (o : Owner) (a : Template) (b : Option WatchId) (s : State) :
    Undisturbed s (s.create i o a b) := by
  rw [State.create_frame]; exact ⟨rfl, rfl⟩

theorem State.dropAdoption_undisturbed (s : State) : Undisturbed s s.dropAdoption := by
  unfold State.dropAdoption; split <;> exact ⟨rfl, rfl⟩

theorem State.dropWatch_undisturbed (w : WatchId) (r : Watch) (s : State) : Undisturbed s (s.dropWatch w r) := by
  unfold State.dropWatch
  dsimp only
  split
  · exact ⟨rfl, rfl⟩
  · split <;> exact ⟨rfl, rfl⟩

theorem State.putSetup_frame (d : Dom) (x : Setup) (s : State) : OnlyDomains s (s.putSetup d x) := by
  unfold State.putSetup
  dsimp only
  split <;> rfl

theorem State.divide_frame (d : Dom) (k : Nat) (s : State) : OnlyDomains s (s.divide d k) := by
  unfold State.divide
  dsimp only
  split
  · exact (State.modCtrl_frame ..).trans (State.driveDclk_frame ..)
  · exact State.modCtrl_frame ..

theorem State.endOffersTo_undisturbed (c : Client) (s : State) : Undisturbed s (s.endOffersTo c) :=
  foldl_keeps _ Undisturbed.refl Undisturbed.trans _
    (fun _ _ => (State.putLease_undisturbed ..).trans (State.notifyOwner_frame ..).undisturbed) _ _

/-- A restart of a client clears the port of that client alone, and leaves the supervisor role (R147). -/
theorem State.restart_undisturbed (c : Client) (f : CauseFlags → CauseFlags) (s : State) :
    ∃ t, Undisturbed s t ∧ Undisturbed (t.clearPort c) (s.restart c f) := by
  have retires := foldl_keeps _ Undisturbed.refl Undisturbed.trans (fun t (x : SlotNo × Lease) => t.retire x.1)
    (fun t x => (t.retire_frame x.1).undisturbed) ((s.addCause c f).restartRetires c) (s.addCause c f)
  refine ⟨_, ((s.addCause_undisturbed c f).trans retires).trans (State.endOffersTo_undisturbed c _), ?_⟩
  unfold State.restart
  dsimp only
  refine Undisturbed.trans ?_ (State.driveCrst_frame ..).undisturbed
  refine Undisturbed.trans ?_ (State.setClient_undisturbed ..)
  exact (State.putQueue_frame ..).undisturbed

theorem State.restart_port_ne {c o : Client} (h : o ≠ c) (f : CauseFlags → CauseFlags) (s : State) :
    (s.restart c f).port o = s.port o := by
  obtain ⟨t, before, after⟩ := s.restart_undisturbed c f
  rw [after.port, State.clearPort, State.setPort_port_ne _ _ _ h, before.port]

theorem State.restart_supervisor (c : Client) (f : CauseFlags → CauseFlags) (s : State) :
    (s.restart c f).supervisor = s.supervisor := by
  obtain ⟨t, before, after⟩ := s.restart_undisturbed c f
  exact after.supervisor.trans before.supervisor

variable {s t : State} {p : Client} {k : ReqKind}

/-- A granted request moves no port and no role, but for CLIENT.RESTART and SUPER.PASS. -/
theorem Granted.undisturbed (h : Granted s p k t) (restart : k ≠ .clientRestart) (pass : k ≠ .superPass) :
    Undisturbed s t := by
  cases h with
  | leaseTake => exact State.create_undisturbed ..
  | leaseRenew | leaseAlter | leaseWithdraw => exact ⟨rfl, rfl⟩
  | leaseRelease => exact (State.retire_frame ..).undisturbed
  | leaseRevoke =>
    exact ((State.retire_frame ..).undisturbed.trans (State.dropAdoption_undisturbed _)).trans
      (State.notifyOwner_frame ..).undisturbed
  | leaseOffer => exact (State.putLease_undisturbed ..).trans (State.notify_frame ..).undisturbed
  | leaseAccept => exact (State.putLease_undisturbed ..).trans (State.notifyOwner_frame ..).undisturbed
  | leaseAdopt => exact (State.putLease_undisturbed ..).trans (State.dropAdoption_undisturbed _)
  | watchSet => exact ⟨rfl, rfl⟩
  | watchDrop => exact State.dropWatch_undisturbed ..
  | domainSetup => exact (State.putSetup_frame ..).undisturbed
  | domainDivide => exact (State.divide_frame ..).undisturbed
  | domainClear => exact (s.event_frame _ _ (State.toDischarge_frame _)).undisturbed
  | clientClearCause | clientQuota => exact ⟨rfl, rfl⟩
  | clientRestart => exact absurd rfl restart
  | superPass => exact absurd rfl pass
  | noticeFetch => exact (State.putQueue_frame ..).undisturbed
  | read => exact .refl s

/-- The supervisor role moves by SUPER.PASS alone (R151). -/
theorem Granted.supervisor (h : Granted s p k t) (pass : k ≠ .superPass) : t.supervisor = s.supervisor := by
  by_cases restart : k = .clientRestart
  · subst restart
    cases h with
    | clientRestart => exact State.restart_supervisor ..
    | read kind => exact absurd kind (by decide)
  · exact (h.undisturbed restart pass).supervisor

/-- Every port but that of a restarted client stands, the requester's among them. -/
theorem Granted.port (h : Granted s p k t) (c : Client) (hc : c = p ∨ k ≠ .clientRestart) :
    t.port c = s.port c := by
  by_cases restart : k = .clientRestart
  · subst restart
    obtain rfl : c = p := hc.resolve_right (absurd rfl)
    cases h with
    | clientRestart f role other => exact State.restart_port_ne other.symm f s
    | read => rfl
  · by_cases pass : k = .superPass
    · subst pass
      cases h <;> rfl
    · exact (h.undisturbed restart pass).port c

/-- A refusal moves no port and no role. -/
theorem afterRefusal_undisturbed (s : State) (p : Client) (status : Status) :
    Undisturbed s (afterRefusal s p status) := by
  unfold afterRefusal
  split
  · exact (State.putQueue_frame ..).undisturbed
  · exact .refl s

theorem ruleOf_port (s : State) (p : Client) (r : Request) (c : Client) (hc : c = p ∨ r.kind ≠ .clientRestart) :
    (ruleOf r.kind p r.body s).state.port c = s.port c := by
  rcases ruleOf_cases s p r with ⟨status, h⟩ | h
  · rw [h]; exact (afterRefusal_undisturbed s p status).port c
  · exact h.port c hc

theorem ruleOf_supervisor (s : State) (p : Client) (r : Request) (pass : r.kind ≠ .superPass) :
    (ruleOf r.kind p r.body s).state.supervisor = s.supervisor := by
  rcases ruleOf_cases s p r with ⟨status, h⟩ | h
  · rw [h]; exact (afterRefusal_undisturbed s p status).supervisor
  · exact h.supervisor pass

/-! ### The take -/

/-- The state that the take of request `r` of port `p` leaves. -/
def State.taken (s : State) (p : Client) (r : Request) : State :=
  (State.serve (ruleOf r.kind) p r s.begin).handOn.judgeRest

variable {r : Request}

theorem exec_taken (running : s.running = true) (next : s.nextRequest = some (p, r)) :
    exec (commandOf r.kind) s = .next (s.taken p r) :=
  (exec_commandOf r.kind s).trans (State.take_of running next rfl _)

/-- The end of a take changes controllers and Rest Control only. -/
theorem State.taken_frame (s : State) (p : Client) (r : Request) :
    s.taken p r
      = { State.serve (ruleOf r.kind) p r s.begin with ctrls := (s.taken p r).ctrls, rest := (s.taken p r).rest } := by
  have h := State.handOn_frame (State.serve (ruleOf r.kind) p r s.begin)
  have j := State.judgeRest_frame (State.serve (ruleOf r.kind) p r s.begin).handOn
  unfold State.taken
  generalize (State.serve (ruleOf r.kind) p r s.begin).handOn = u at h j ⊢
  generalize u.judgeRest = v at j ⊢
  rw [j, h]

theorem State.taken_turn (s : State) (p : Client) (r : Request) : (s.taken p r).turn = p + 1 := by
  rw [State.taken_frame]; rfl

/-- The answer of a take stands in its port with the echoes, the pending flags and ATTN, and a body only with OK (R174,
R176). -/
theorem State.taken_port (s : State) (p : Client) (r : Request) :
    (s.taken p r).port p
      = { state := .ready (answerOf s (s.taken p r) p r (ruleOf r.kind p r.body s.begin).status
            (if (ruleOf r.kind p r.body s.begin).status = .ok then (ruleOf r.kind p r.body s.begin).body else []))
          saved := some (answerOf s (s.taken p r) p r (ruleOf r.kind p r.body s.begin).status
            (if (ruleOf r.kind p r.body s.begin).status = .ok then (ruleOf r.kind p r.body s.begin).body else []))
          memory := some r.seq, priorDiscarded := false, busyDrop := false, torn := false } := by
  have port : (s.taken p r).port p = (State.serve (ruleOf r.kind) p r s.begin).port p := by
    rw [State.taken_frame]; rfl
  have queue : (s.taken p r).queue p = (ruleOf r.kind p r.body s.begin).state.queue p := by
    rw [State.taken_frame]; rfl
  have flags := ruleOf_port s.begin p r p (.inl rfl)
  rw [port, State.serve_port]
  simp only [Reply.answer, answerOf, State.flagsNow, queue, flags, State.begin_port]

/-- The other ports are as the request's rule leaves them. -/
theorem State.taken_port_ne (s : State) (p : Client) (r : Request) {c : Client} (hc : c ≠ p) :
    (s.taken p r).port c = (ruleOf r.kind p r.body s.begin).state.port c := by
  rw [← State.serve_port_ne (ruleOf r.kind) r s.begin hc, State.taken_frame]
  rfl

/-- With no request held, nobody has the turn. -/
theorem State.nextRequest_none (h : ∀ c r, (s.port c).state ≠ .held r) : s.nextRequest = none := by
  have held : ∀ c, s.heldAt c = none := fun c => State.heldAt_none.2 (h c)
  simp [State.nextRequest, held]

/-- A take while the engine takes no claims, or with no request held, does nothing. -/
theorem exec_commandOf_idle (h : s.running = false ∨ ∀ c r, (s.port c).state ≠ .held r) (k : ReqKind) :
    exec (commandOf k) s = .next s := by
  rw [exec_commandOf, State.take]
  cases e : s.nextRequest with
  | none => rfl
  | some x =>
    rcases h with h | h
    · exact State.claim_not (.inl h) _
    · rw [State.nextRequest_none h] at e; cases e

/-- Settles O4: the take of the request whose turn it is, by the port it leaves. -/
theorem requestsAreTakenInTurn : Obligations.RequestsAreTakenInTurn := by
  refine ⟨fun s n r running held before => ?_, fun s k => fun h => exec_commandOf_idle h k⟩
  have next := State.nextRequest_first held before
  refine ⟨⟨s.taken (s.turn + n) r, _, _, exec_taken running next, fun h => if_neg h, s.taken_port _ r,
    s.taken_turn _ r, fun c hc restart => (s.taken_port_ne _ r hc).trans (ruleOf_port s.begin _ r c (.inr restart))⟩,
    fun k hk => ?_⟩
  rw [exec_commandOf]
  exact State.take_other next hk.symm _

/-! ### A refused request -/

theorem State.restConditions_judged (s : State) : s.judgeRest.restConditions = s.restConditions := by
  rw [State.judgeRest_frame]; rfl
theorem State.wakeCondition_judged (s : State) : s.judgeRest.wakeCondition = s.wakeCondition := by
  rw [State.judgeRest_frame]; rfl
theorem State.resetLow_judged (s : State) : s.judgeRest.resetLow = s.resetLow := by
  rw [State.judgeRest_frame]

/-- Rest Control at the end of a step is the judgement of what it held before the end (R132 to R137). -/
theorem State.judgeRest_rest (s : State) : s.judgeRest.rest = judgedRest s.rest s.judgeRest := by
  unfold judgedRest
  rw [State.restConditions_judged, State.wakeCondition_judged, State.resetLow_judged]
  unfold State.judgeRest
  split
  · rfl
  · cases s.rest.part <;> dsimp only <;> (try split) <;> rfl

/-- A refused request, where every controller holds its lease demand, changes its port, the turn and Rest Control
only. -/
theorem State.taken_refused {status : Status} (h : ruleOf r.kind p r.body s.begin = refuse status s.begin)
    (demand : DemandLaw s) :
    s.taken p r
        = { s with
            ports := (s.taken p r).ports, turn := (s.taken p r).turn, rest := (s.taken p r).rest, changes := [] }
      ∧ RestJudged s (s.taken p r) := by
  have served : State.serve (ruleOf r.kind) p r s.begin
      = { s with ports := (State.serve (ruleOf r.kind) p r s.begin).ports, turn := p + 1, changes := [] } := by
    rw [State.serve_frame, h]; rfl
  have same : (State.serve (ruleOf r.kind) p r s.begin).handOn = State.serve (ruleOf r.kind) p r s.begin := by
    refine State.handOn_same fun d => ?_
    have slots : (State.serve (ruleOf r.kind) p r s.begin).slots = s.slots := by rw [served]
    have ctrl : (State.serve (ruleOf r.kind) p r s.begin).ctrl d = s.ctrl d := by rw [served]; rfl
    rw [ctrl, State.tableDemand_congr slots]
    exact demand d
  unfold State.taken
  rw [same]
  refine ⟨?_, ?_⟩
  · have j := State.judgeRest_frame (State.serve (ruleOf r.kind) p r s.begin)
    generalize (State.serve (ruleOf r.kind) p r s.begin) = u at served j ⊢
    generalize u.judgeRest = v at j ⊢
    rw [j, served]
  · have rest : (State.serve (ruleOf r.kind) p r s.begin).rest = s.rest := by rw [served]
    exact (State.judgeRest_rest _).trans (congrArg (fun x => judgedRest x _) rest)

/-- Settles O11: the status of a reply is that of the first check that fails. -/
theorem requestsRefuseInOrder : Obligations.RequestsRefuseInOrder := by
  rintro s p r ⟨running, next, -⟩
  have decided := ruleOf_decides s.begin p r
  have port := s.taken_port p r
  refine ⟨fun status refused => ?_, fun granted => ?_⟩
  · rw [show refusal s.begin p r = some status from refused] at decided
    have reply : ruleOf r.kind p r.body s.begin = refuse status (afterRefusal s.begin p status) := decided
    refine ⟨s.taken p r, exec_taken running next, ⟨?_, fun c hc => ?_, s.taken_turn p r⟩, fun demand marker => ?_⟩
    · simpa only [reply, refuse, ite_self] using port
    · rw [State.taken_port_ne s p r hc, reply]
      exact (afterRefusal_undisturbed s.begin p status).port c
    · exact State.taken_refused (by simpa [afterRefusal, marker] using reply) demand
  · rw [show refusal s.begin p r = none from granted] at decided
    obtain ⟨status, -⟩ := decided
    exact ⟨_, _, exec_taken running next, congrArg Port.state port, status⟩

end Sys2Proof.Machine

/-! ## The moves of the lease table -/

namespace Sys2Proof.Machine

/-! ### The moves -/

/-- A watch as a step may leave it aside: its mark and its stale lines may move, but no mark is set on a SPENT watch. -/
structure WatchAlike (r r' : Watch) : Prop where
  owner : r'.owner = r.owner
  state : r'.state = r.state
  slot : r'.slot = r.slot
  template : r'.template = r.template
  mark : r.state = .spent → r'.mark = true → r.mark = true

theorem WatchAlike.refl (r : Watch) : WatchAlike r r := ⟨rfl, rfl, rfl, rfl, fun _ => id⟩

/-- The slots, the counter, the claims and the quotas stand, and every watch is as it was but for its mark while ARMED
and its stale lines. -/
structure Aside (s t : State) : Prop where
  slots : t.slots = s.slots
  counter : t.counter = s.counter
  termClaims : t.termClaims = s.termClaims
  windowClaims : t.windowClaims = s.windowClaims
  quota : ∀ c, (t.client c).quota = (s.client c).quota
  watches : ∀ w, ∃ f : Watch → Watch, (∀ r, WatchAlike r (f r)) ∧ t.watch w = (s.watch w).map f

/-- What an amendment of a lease keeps: its creation number, its binding and its soundness; it sets no mark, and a new
owner is a client below its quota who takes over no bound lease. -/
structure Amends (s : State) (l l' : Lease) : Prop where
  creation : l'.creation = l.creation
  binding : l'.binding = l.binding
  sound : leaseSound l = true → leaseSound l' = true
  expiryMark : l'.expiryMark = true → l.expiryMark = true
  windowMark : l'.windowMark = true → l.windowMark = true
  owner : l'.owner = l.owner
    ∨ ∃ c, l'.owner = .client c ∧ s.charge c < (s.client c).quota ∧ (leaseSound l = true → l.binding = none)

/-- A move that creates no lease and reserves or frees no slot but by retiring a lease: steps are chains of these. -/
inductive Plain (s : State) : State → Prop
  | aside {t : State} (h : Aside s t) : Plain s t
  | amend {i : SlotNo} {l l' : Lease} (at_ : s.leaseAt i = some l) (h : Amends s l l') : Plain s (s.putLease i l')
  | retire (i : SlotNo) : Plain s (s.retire i)
  | quota {c : Client} {q : Nat} (charge : s.charge c ≤ q) (range : 1 ≤ q ∧ q ≤ 64) :
      Plain s (s.setClient c { s.client c with quota := q })
  | dropTerm {h : Handle} (unmarked : ∀ i l, s.leaseAt i = some l → s.handleAt i = h → l.expiryMark = false) :
      Plain s { s with termClaims := s.termClaims.erase h }
  | dropWindow {h : Handle} (unmarked : ∀ i l, s.leaseAt i = some l → s.handleAt i = h → l.windowMark = false) :
      Plain s { s with windowClaims := s.windowClaims.erase h }
  | count : Plain s s.countTick

/-- A move that rests on the slots and watches of the state it begins in: a lease created, a slot reserved, a watch
dropped. A step makes at most one, first of all. -/
inductive First (s : State) : State → Prop
  | take {i : SlotNo} {c : Client} {a : Template} (free : (s.slot i).cond = .free)
      (quota : s.charge c < (s.client c).quota) (term : a.term ≤ 65535) : First s (s.create i (.client c) a none)
  | fire {w : WatchId} {r : Watch} (held : s.watch w = some r) (armed : r.state = .armed) :
      First s ((s.create r.slot (.client r.owner) r.template (some w)).setWatch w
        (some { r with state := .spent, mark := false }))
  | reserve {w : WatchId} {i : SlotNo} {r : Watch} (room : s.watch w = none) (free : (s.slot i).cond = .free)
      (quota : s.charge r.owner < (s.client r.owner).quota) (armed : r.state = .armed) (slot : r.slot = i)
      (term : r.template.term ≤ 65535) :
      First s ((s.setSlot i { gen := (s.slot i).gen, cond := .reserved w }).setWatch w (some r))
  | drop {w : WatchId} {r : Watch} (held : s.watch w = some r) : First s (s.dropWatch w r)

/-- A chain of plain moves. -/
abbrev Plains (s t : State) : Prop := Relation.ReflTransGen Plain s t

/-- What a step does to the table: a chain of plain moves, or one first move and nothing more. -/
def Evolves (s t : State) : Prop := Plains s t ∨ ∃ u, First s u ∧ Aside u t

/-! ### What stands aside -/

theorem Aside.refl (s : State) : Aside s s :=
  ⟨rfl, rfl, rfl, rfl, fun _ => rfl, fun _ => ⟨id, WatchAlike.refl, by simp⟩⟩

theorem WatchAlike.trans {a b c : Watch} (h : WatchAlike a b) (k : WatchAlike b c) : WatchAlike a c :=
  ⟨k.owner.trans h.owner, k.state.trans h.state, k.slot.trans h.slot, k.template.trans h.template,
    fun e marked => h.mark e (k.mark (h.state.trans e) marked)⟩

theorem Aside.trans {s t u : State} (h : Aside s t) (k : Aside t u) : Aside s u := by
  refine ⟨k.slots.trans h.slots, k.counter.trans h.counter, k.termClaims.trans h.termClaims,
    k.windowClaims.trans h.windowClaims, fun c => (k.quota c).trans (h.quota c), fun w => ?_⟩
  obtain ⟨f, hf, ef⟩ := h.watches w
  obtain ⟨g, hg, eg⟩ := k.watches w
  exact ⟨g ∘ f, fun r => (hf r).trans (hg _), by rw [eg, ef, Option.map_map]⟩

/-- A state that differs in no slot, watch, counter, claim or client record stands aside. -/
theorem Aside.of_eq {s t : State} (slots : t.slots = s.slots) (counter : t.counter = s.counter)
    (termClaims : t.termClaims = s.termClaims) (windowClaims : t.windowClaims = s.windowClaims)
    (quota : ∀ c, (t.client c).quota = (s.client c).quota) (watches : t.watches = s.watches) : Aside s t :=
  ⟨slots, counter, termClaims, windowClaims, quota,
    fun w => ⟨id, WatchAlike.refl, by simp [State.watch, watches]⟩⟩

theorem Passed.aside {s t : State} (h : Passed s t) : Aside s t := by
  have frame := h.frame
  unfold OnlyDomains at frame
  refine Aside.of_eq ?_ ?_ ?_ ?_ h.quota ?_ <;> rw [frame]

theorem OnlyNotices.aside {s t : State} (h : OnlyNotices s t) : Aside s t := h.passed.aside

theorem State.setCtrls_aside (s : State) (v : Vec Ctrl 8) : Aside s { s with ctrls := v } :=
  .of_eq rfl rfl rfl rfl (fun _ => rfl) rfl

theorem State.handOn_aside (s : State) : Aside s s.handOn := by
  rw [State.handOn_frame]; exact s.setCtrls_aside _

theorem State.judgeRest_aside (s : State) : Aside s s.judgeRest := by
  rw [State.judgeRest_frame]; exact .of_eq rfl rfl rfl rfl (fun _ => rfl) rfl

theorem State.begin_aside (s : State) : Aside s s.begin := .of_eq rfl rfl rfl rfl (fun _ => rfl) rfl

theorem State.setPort_aside (c : Client) (q : Port) (s : State) : Aside s (s.setPort c q) :=
  .of_eq rfl rfl rfl rfl (fun _ => rfl) rfl

theorem State.setClient_aside {r : ClientRec} (c : Client) (s : State)
    (h : r.quota = (s.client c).quota := by rfl) : Aside s (s.setClient c r) := (State.setClient_passed c s h).aside

theorem State.modCtrl_aside (d : Dom) (f : Ctrl → Ctrl) (s : State) : Aside s (s.modCtrl d f) := s.setCtrls_aside _

theorem State.dropAdoption_aside (s : State) : Aside s s.dropAdoption := by
  unfold State.dropAdoption
  split
  · exact .refl s
  · exact .of_eq rfl rfl rfl rfl (fun _ => rfl) rfl

theorem State.putQueue_aside (c : Client) (es : List Entry) (o : Bool) (s : State) : Aside s (s.putQueue c es o) :=
  (State.putQueue_frame ..).aside

theorem State.notify_aside (c : Client) (k : NoticeKind) (sub : Subject) (det : Detail) (s : State) :
    Aside s (s.notify c k sub det) := (State.notify_frame ..).aside

theorem State.notifyOwner_aside (o : Owner) (k : NoticeKind) (sub : Subject) (det : Detail) (s : State) :
    Aside s (s.notifyOwner o k sub det) := (State.notifyOwner_frame ..).aside

theorem judged_alike (u : WakeUnit) (r : Watch) : WatchAlike r (judged u r) :=
  ⟨rfl, rfl, rfl, rfl, fun h marked => by simpa [judged, h] using marked⟩

theorem lineMoved_alike (l : Line) (r : Watch) : WatchAlike r (r.lineMoved l) := ⟨rfl, rfl, rfl, rfl, fun _ => id⟩

theorem State.judgeWatches_aside (s : State) : Aside s s.judgeWatches :=
  ⟨rfl, rfl, rfl, rfl, fun _ => rfl,
    fun w => ⟨judged s.wake, judged_alike s.wake, by simp [State.judgeWatches, State.watch]⟩⟩

theorem State.moveLine_aside (l : Line) (high : Bool) (s : State) : Aside s (s.moveLine l high) :=
  ⟨rfl, rfl, rfl, rfl, fun _ => rfl,
    fun w => ⟨Watch.lineMoved l, lineMoved_alike l, by simp [State.moveLine, State.watch]⟩⟩

theorem State.setWake_aside (s : State) (u : WakeUnit) : Aside s { s with wake := u } :=
  .of_eq rfl rfl rfl rfl (fun _ => rfl) rfl

theorem State.setRest_aside (s : State) (r : Rest) : Aside s { s with rest := r } :=
  .of_eq rfl rfl rfl rfl (fun _ => rfl) rfl

theorem State.sample_aside (s : State) : Aside s s.sample :=
  ((s.setWake_aside _).trans (State.judgeWatches_aside _)).trans (State.setWake_aside _ _)

theorem State.firstSample_aside (s : State) : Aside s s.firstSample :=
  ((s.setWake_aside _).trans (State.judgeWatches_aside _)).trans (State.setWake_aside _ _)

theorem State.clearQueue_aside (c : Client) (s : State) : Aside s (s.clearQueue c) := s.putQueue_aside c [] false

/-! ### Chains -/

theorem Aside.plains {s t : State} (h : Aside s t) : Plains s t := .single (.aside h)
theorem Plain.plains {s t : State} (h : Plain s t) : Plains s t := .single h
theorem Plains.evolves {s t : State} (h : Plains s t) : Evolves s t := .inl h

theorem Evolves.aside {s t u : State} (h : Evolves s t) (k : Aside t u) : Evolves s u := by
  rcases h with h | ⟨v, first, aside⟩
  · exact .inl (h.tail (.aside k))
  · exact .inr ⟨v, first, aside.trans k⟩

theorem First.evolves {s t : State} (h : First s t) : Evolves s t := .inr ⟨t, h, .refl t⟩

theorem State.putLease_leaseAt (s : State) (i j : SlotNo) (l : Lease) :
    (s.putLease i l).leaseAt j = if j = i then some l else s.leaseAt j := by
  unfold State.leaseAt
  rw [State.putLease_slot]
  by_cases h : j = i <;> simp [h]

/-- An end of an offer to a client amends the lease. -/
theorem amends_endOffer (s : State) (l : Lease) : Amends s l { l with offer := none } where
  creation := rfl
  binding := rfl
  sound := by
    unfold leaseSound
    cases l.owner <;> simp +contextual
  expiryMark := id
  windowMark := id
  owner := .inl rfl

theorem State.endOffer_plains {c : Client} {s : State} {x : SlotNo × Lease} (h : s.leaseAt x.1 = some x.2) :
    Plains s (s.endOffer c x) :=
  (Plain.amend h (amends_endOffer s x.2)).plains.trans (State.notifyOwner_aside ..).plains

theorem State.endOffer_leaseAt {c : Client} {s : State} {x : SlotNo × Lease} {j : SlotNo} (h : j ≠ x.1) :
    (s.endOffer c x).leaseAt j = s.leaseAt j := by
  unfold State.endOffer
  rw [State.leaseAt_congr (State.notifyOwner_aside ..).slots, State.putLease_leaseAt, if_neg h]

/-- What each end of an offer keeps, on the lease that stands in its slot, the ends of several on different slots
keep. -/
theorem foldl_endOffer_keeps (R : State → State → Prop) (refl : ∀ s, R s s)
    (trans : ∀ {s t u}, R s t → R t u → R s u) (c : Client)
    (step : ∀ s (x : SlotNo × Lease), s.leaseAt x.1 = some x.2 → R s (s.endOffer c x)) (xs : List (SlotNo × Lease))
    (s : State) (slots : (xs.map Prod.fst).Nodup) (stands : ∀ x ∈ xs, s.leaseAt x.1 = some x.2) :
    R s (xs.foldl (State.endOffer c) s) := by
  induction xs generalizing s with
  | nil => exact refl s
  | cons x xs ih =>
    rw [List.map_cons, List.nodup_cons] at slots
    refine trans (step s x (stands x (by simp))) (ih _ slots.2 fun y hy => ?_)
    have apart : y.1 ≠ x.1 := fun e => slots.1 (e ▸ List.mem_map_of_mem hy)
    rw [State.endOffer_leaseAt apart]
    exact stands y (by simp [hy])

theorem State.leasesBySlot_nodup (s : State) : (s.leasesBySlot.map Prod.fst).Nodup := by
  have fst : s.leasesBySlot.map Prod.fst = (List.finRange 64).filter (fun i => (s.leaseAt i).isSome) := by
    unfold State.leasesBySlot
    induction List.finRange 64 with
    | nil => rfl
    | cons i is ih => cases h : s.leaseAt i <;> simp [h, ih]
  rw [fst]
  exact (List.nodup_finRange 64).filter _

/-- The listing order names each slot at most once. -/
theorem State.leases_nodup (s : State) : (s.leases.map Prod.fst).Nodup :=
  (s.leases_perm.map Prod.fst).nodup_iff.2 s.leasesBySlot_nodup

theorem State.endOffersTo_keeps (R : State → State → Prop) (refl : ∀ s, R s s)
    (trans : ∀ {s t u}, R s t → R t u → R s u) (c : Client)
    (step : ∀ s (x : SlotNo × Lease), s.leaseAt x.1 = some x.2 → R s (s.endOffer c x)) (s : State) :
    R s (s.endOffersTo c) := by
  refine foldl_endOffer_keeps R refl trans c step _ s ?_ fun x hx => State.mem_leases.1 (List.mem_filter.1 hx).1
  exact s.leases_nodup.sublist (List.filter_sublist.map Prod.fst)

theorem State.endOffersTo_plains (c : Client) (s : State) : Plains s (s.endOffersTo c) :=
  State.endOffersTo_keeps Plains (fun _ => .refl) (fun h k => h.trans k) c (fun _ _ h => State.endOffer_plains h) s

theorem foldl_plains {α : Type} {f : State → α → State} (h : ∀ t x, Plains t (f t x)) (xs : List α) (s : State) :
    Plains s (xs.foldl f s) :=
  foldl_keeps Plains (fun _ => .refl) (fun h k => h.trans k) f h xs s

theorem State.homeLost_plains (c : Client) (s : State) : Plains s (s.homeLost c) := by
  unfold State.homeLost
  dsimp only
  refine Relation.ReflTransGen.trans ?_ (State.endOffersTo_plains c _)
  exact (((State.setClient_aside c s).trans (State.setPort_aside ..)).trans (State.clearQueue_aside ..)).plains

theorem State.restart_plains (c : Client) (f : CauseFlags → CauseFlags) (s : State) : Plains s (s.restart c f) := by
  unfold State.restart
  dsimp only
  have caused : Plains s (s.addCause c f) := (State.setClient_aside c s).plains
  have retired := foldl_plains (f := fun t (x : SlotNo × Lease) => t.retire x.1) (fun t x => (Plain.retire x.1).plains)
    ((s.addCause c f).restartRetires c) (s.addCause c f)
  refine ((caused.trans retired).trans (State.endOffersTo_plains c _)).trans (Aside.plains ?_)
  refine Aside.trans ?_ (State.driveCrst_passed ..).aside
  refine Aside.trans ?_ (State.setClient_aside c _)
  exact (State.setPort_aside ..).trans (State.clearQueue_aside ..)

/-! ### The requests -/

theorem newLease_sound {n : Nat} {c : Client} {a : Template} {b : Option WatchId} (h : a.term ≤ 65535) :
    leaseSound (newLease n (.client c) a b) = true := by
  unfold leaseSound newLease
  by_cases h0 : a.term = 0 <;> simp [h0, h]

section Amendments

variable {s : State} {l : Lease}

theorem amends_renewed {nt : Option Nat} (some_term : ¬ (nt = none ∧ l.term = 0))
    (term : ∀ n, nt = some n → n ≤ 65535) : Amends s l (l.renewed nt) := by
  unfold Lease.renewed
  split
  · have timed : l.term ≠ 0 := fun h => some_term ⟨rfl, h⟩
    exact ⟨rfl, rfl, by unfold leaseSound; cases l.owner <;> simp +contextual [timed], id, id, .inl rfl⟩
  · exact ⟨rfl, rfl, by unfold leaseSound; cases l.owner <;> simp +contextual, id, id, .inl rfl⟩
  · next n zero =>
    have range := term n rfl
    have timed : n ≠ 0 := fun h => zero h
    exact ⟨rfl, rfl, by unfold leaseSound; cases l.owner <;> simp +contextual [timed, range], id, id, .inl rfl⟩

theorem amends_level (level : Level) : Amends s l { l with level := level } :=
  ⟨rfl, rfl, id, id, id, .inl rfl⟩

theorem amends_offered {target p : Client} {window : Nat} (owner : l.owner = .client p) (other : target ≠ p)
    (unbound : l.binding = none) (range : window ≤ 4095) :
    Amends s l { l with offer := some { target := target, window := window } } :=
  ⟨rfl, rfl, by unfold leaseSound; simp +contextual [owner, unbound, range, other.symm], id, id, .inl rfl⟩

theorem amends_accepted {p : Client} (offered : l.offer.map Offer.target = some p)
    (quota : s.charge p < (s.client p).quota) : Amends s l (l.accepted p) := by
  obtain ⟨o, ho, -⟩ := Option.map_eq_some_iff.1 offered
  refine ⟨rfl, rfl, ?_, id, id, .inr ⟨p, rfl, quota, ?_⟩⟩
  · unfold leaseSound Lease.accepted
    by_cases h0 : l.term = 0 <;> simp +contextual [h0]
  · unfold leaseSound
    simp +contextual [ho]

theorem amends_adopted {p : Client} {a : AdoptTerms} (boot : l.owner = .boot)
    (quota : s.charge p < (s.client p).quota) (term : a.term ≤ 65535) : Amends s l (l.adopted p a) := by
  refine ⟨rfl, rfl, ?_, id, id, .inr ⟨p, rfl, quota, ?_⟩⟩
  · unfold leaseSound Lease.adopted
    by_cases h0 : a.term = 0 <;> simp +contextual [h0, boot, term]
  · unfold leaseSound
    simp +contextual [boot]

theorem amends_expiryMark : Amends s l { l with expiryMark := false } := ⟨rfl, rfl, id, nofun, id, .inl rfl⟩
theorem amends_windowMark : Amends s l { l with windowMark := false } := ⟨rfl, rfl, id, id, nofun, .inl rfl⟩
theorem amends_expired : Amends s l { l with offer := none, windowMark := false } :=
  ⟨rfl, rfl, (amends_endOffer s l).sound, id, nofun, .inl rfl⟩

end Amendments

theorem State.named_leaseAt {s : State} {h : Handle} {l : Lease} (named : s.named h = some l) :
    s.leaseAt h.slot = some l := by
  unfold State.named at named
  split at named
  · exact named
  · cases named

/-- A granted request is a first move, or a chain of plain ones. -/
theorem Granted.evolves {s t : State} {p : Client} {k : ReqKind} (h : Granted s p k t) : Evolves s t := by
  cases h with
  | leaseTake quota free term => exact (First.take (State.freeSlot_iff.1 free).1 quota term).evolves
  | leaseRenew named owner some_term term =>
    exact (Plain.amend (State.named_leaseAt named) (amends_renewed some_term term)).plains.evolves
  | leaseAlter named owner => exact (Plain.amend (State.named_leaseAt named) (amends_level _)).plains.evolves
  | leaseRelease => exact (Plain.retire _).plains.evolves
  | leaseRevoke =>
    exact ((Plain.retire _).plains.evolves.aside (State.dropAdoption_aside _)).aside (State.notifyOwner_aside ..)
  | leaseOffer named owner other unoffered unbound range =>
    exact (Plain.amend (State.named_leaseAt named) (amends_offered owner other unbound range)).plains.evolves.aside
      (State.notify_aside ..)
  | leaseWithdraw named owner =>
    exact (Plain.amend (State.named_leaseAt named) (amends_endOffer s _)).plains.evolves
  | leaseAccept named offered quota =>
    exact (Plain.amend (State.named_leaseAt named) (amends_accepted offered quota)).plains.evolves.aside
      (State.notifyOwner_aside ..)
  | leaseAdopt named boot quota term =>
    exact (Plain.amend (State.named_leaseAt named) (amends_adopted boot quota term)).plains.evolves.aside
      (State.dropAdoption_aside _)
  | watchSet room quota free term =>
    exact (First.reserve (State.freeWatch_iff.1 room).1 (State.freeSlot_iff.1 free).1 quota rfl rfl term).evolves
  | watchDrop held owner => exact (First.drop held).evolves
  | domainSetup =>
    refine (Aside.plains ?_).evolves
    unfold State.putSetup
    dsimp only
    split <;> exact s.setCtrls_aside _
  | domainDivide =>
    refine (Aside.plains ?_).evolves
    unfold State.divide
    dsimp only
    split
    · exact (State.modCtrl_aside ..).trans (State.driveDclk_passed ..).aside
    · exact State.modCtrl_aside ..
  | domainClear => exact (s.event_passed _ (State.toDischarge_passed _)).aside.plains.evolves
  | clientClearCause => exact (State.setClient_aside p s).plains.evolves
  | clientQuota role charge range => exact (Plain.quota charge range).plains.evolves
  | clientRestart => exact (State.restart_plains ..).evolves
  | superPass =>
    refine (Aside.plains ?_).evolves
    exact .of_eq rfl rfl rfl rfl (fun _ => rfl) rfl
  | noticeFetch => exact (State.putQueue_aside ..).plains.evolves
  | read => exact .inl .refl

theorem afterRefusal_aside (s : State) (p : Client) (status : Status) : Aside s (afterRefusal s p status) := by
  unfold afterRefusal
  split
  · exact State.putQueue_aside ..
  · exact .refl s

/-- A served request evolves the table. -/
theorem State.served_evolves (s : State) (p : Client) (r : Request) :
    Evolves s.begin (State.serve (ruleOf r.kind) p r s.begin) := by
  have ruled : Evolves s.begin (ruleOf r.kind p r.body s.begin).state := by
    rcases ruleOf_cases s.begin p r with ⟨status, h⟩ | h
    · rw [h]; exact (afterRefusal_aside ..).plains.evolves
    · exact h.evolves
  exact ruled.aside (.of_eq rfl rfl rfl rfl (fun _ => rfl) rfl)

/-! ### The claims of the engine -/

/-- Retiring a lease does not look at the claims that wait. -/
theorem State.retire_termClaims (s : State) (i : SlotNo) (x : List Handle) :
    State.retire i { s with termClaims := x } = { s.retire i with termClaims := x } := by
  unfold State.retire
  rw [show State.leaseAt { s with termClaims := x } i = s.leaseAt i from rfl]
  cases s.leaseAt i with
  | none => rfl
  | some l =>
    dsimp only
    cases l.binding with
    | none => rfl
    | some w =>
      dsimp only
      unfold State.rearm
      change (match s.watch w with | some r => _ | none => _) = _
      simp only [State.setSlot_watch]
      cases s.watch w <;> rfl

theorem State.named_of_handle {s : State} {h : Handle} {i : SlotNo} {l : Lease} (at_ : s.leaseAt i = some l)
    (handle : s.handleAt i = h) : s.named h = some l := by
  subst handle
  simp [State.named, State.handleAt, at_]

theorem State.retire_claims (s : State) (i : SlotNo) :
    (s.retire i).termClaims = s.termClaims ∧ (s.retire i).windowClaims = s.windowClaims := by
  have h := s.retire_frame i
  unfold OnlyTable at h
  rw [h]
  exact ⟨rfl, rfl⟩

theorem State.lapse_plains (s : State) (h : Handle) (l : Lease) : Plains (s.retire h.slot) (s.lapse h l) := by
  unfold State.lapse State.lapseRelease State.lapseRestart
  cases l.lapse with
  | release => exact (State.notifyOwner_aside ..).plains
  | restart =>
    cases l.owner with
    | client c => exact State.restart_plains ..
    | boot => exact .refl

/-- A term claim whose lease is retired goes. -/
theorem State.retire_dropTerm (s : State) (h : Handle) :
    Plains s { s.retire h.slot with termClaims := s.termClaims.erase h } := by
  rw [← (s.retire_claims h.slot).1]
  refine (Plain.retire h.slot).plains.tail (.dropTerm fun i l at_ handle => ?_)
  obtain rfl : i = h.slot := congrArg Handle.slot handle
  rw [State.retire_leaseAt, if_pos rfl] at at_
  cases at_

/-- The take of a lease-term expiry claim: the lease is retired or its mark cleared before the claim goes (R50). -/
theorem State.takeTerm_plains (s : State) (h : Handle) : Plains s (s.takeTerm h) := by
  unfold State.takeTerm
  dsimp only
  rw [show State.named { s with termClaims := s.termClaims.erase h } h = s.named h from rfl]
  cases named : s.named h with
  | none =>
    refine (Plain.dropTerm fun i l at_ handle => ?_).plains
    rw [State.named_of_handle at_ handle] at named
    cases named
  | some l =>
    dsimp only
    split
    · refine Relation.ReflTransGen.trans ?_ (State.lapse_plains _ h l)
      rw [State.retire_termClaims]
      exact s.retire_dropTerm h
    · refine (Plain.amend (State.named_leaseAt named) amends_expiryMark).plains.tail
        (.dropTerm fun i m at_ handle => ?_)
      obtain rfl : i = h.slot := congrArg Handle.slot handle
      rw [State.putLease_leaseAt, if_pos rfl, Option.some.injEq] at at_
      rw [← at_]

/-- A window claim goes with the mark of the lease it names. -/
theorem Plain.dropWindow_of {s : State} {h : Handle} {l' : Lease} (unmarked : l'.windowMark = false) :
    Plain (s.putLease h.slot l')
      { s.putLease h.slot l' with windowClaims := s.windowClaims.erase h } := by
  refine Plain.dropWindow fun i m at_ handle => ?_
  obtain rfl : i = h.slot := congrArg Handle.slot handle
  rw [State.putLease_leaseAt, if_pos rfl, Option.some.injEq] at at_
  exact at_ ▸ unmarked

/-- The take of an offer-window expiry claim: the mark of its lease is cleared before the claim goes (R68). -/
theorem State.takeWindow_plains (s : State) (h : Handle) : Plains s (s.takeWindow h) := by
  unfold State.takeWindow
  dsimp only
  rw [show State.named { s with windowClaims := s.windowClaims.erase h } h = s.named h from rfl]
  cases named : s.named h with
  | none =>
    refine (Plain.dropWindow fun i l at_ handle => ?_).plains
    rw [State.named_of_handle at_ handle] at named
    cases named
  | some l =>
    have stands := State.named_leaseAt named
    have cleared := (Plain.amend stands (amends_windowMark (s := s) (l := l))).plains.tail (.dropWindow_of rfl)
    dsimp only
    split
    · split
      · exact ((Plain.amend stands amends_expired).plains.tail (.dropWindow_of rfl)).trans
          (State.notifyOwner_aside ..).plains
      · exact cleared
    · exact cleared

theorem State.setAdoption_aside (s : State) (a : Option Nat) (m : Bool) :
    Aside s { s with adoption := a, adoptionMark := m } := .of_eq rfl rfl rfl rfl (fun _ => rfl) rfl

/-- The take of the adoption-window expiry claim: every BOOT lease is retired (R166). -/
theorem State.takeAdoption_plains (s : State) : Plains s s.takeAdoption := by
  unfold State.takeAdoption
  dsimp only
  have unmarked : Plains s { s with adoptionMark := false } := (s.setAdoption_aside s.adoption false).plains
  split
  · refine (unmarked.trans ?_).trans (State.setAdoption_aside _ none _).plains
    exact foldl_plains (fun _ _ => (Plain.retire _).plains.trans (State.notify_aside ..).plains) _ _
  · exact unmarked

/-- A mark cleared stands aside. -/
theorem State.clearMark_aside {s : State} {w : WatchId} {r : Watch} (held : s.watch w = some r) :
    Aside s (s.setWatch w (some { r with mark := false })) := by
  refine ⟨rfl, rfl, rfl, rfl, fun _ => rfl, fun v => ?_⟩
  by_cases h : v = w
  · subst h
    exact ⟨fun x => { x with mark := false }, fun _ => ⟨rfl, rfl, rfl, rfl, fun _ => nofun⟩, by simp [held]⟩
  · exact ⟨id, WatchAlike.refl, by simp [State.setWatch_watch_ne _ _ _ h]⟩

/-- The firing of a watch: a lease is created for an ARMED one, and a SPENT one only loses its mark (R127). -/
theorem State.fire_evolves (s : State) (w : WatchId) : Evolves s (s.fire w) := by
  unfold State.fire
  cases held : s.watch w with
  | none => exact .inl .refl
  | some r =>
    cases state : r.state with
    | spent => simpa only [state] using (State.clearMark_aside held).plains.evolves
    | armed => simpa only [state] using (First.fire held state).evolves.aside (State.notify_aside ..)

end Sys2Proof.Machine

/-! ## What a step can do -/

namespace Sys2Proof.Machine

open Sys2Proof.Statement

/-! ### The demands -/

/-- The domain and the level of a lease: all that a lease demand looks at (R17). -/
def Lease.asks (l : Lease) : Dom × Level := (l.domain, l.level)

/-- Every slot asks what it asked. -/
def AsksSame (s t : State) : Prop := ∀ i, (t.leaseAt i).map Lease.asks = (s.leaseAt i).map Lease.asks

theorem AsksSame.refl (s : State) : AsksSame s s := fun _ => rfl
theorem AsksSame.trans {s t u : State} (h : AsksSame s t) (k : AsksSame t u) : AsksSame s u :=
  fun i => (k i).trans (h i)
theorem AsksSame.of_slots {s t : State} (h : t.slots = s.slots) : AsksSame s t := fun i => by
  rw [State.leaseAt_congr h]

/-- The lease demand of a domain, slot by slot (R17). -/
theorem State.tableDemand_eq (s : State) (d : Dom) :
    s.tableDemand d
      = (((List.finRange 64).filterMap (fun i => (s.leaseAt i).map Lease.asks)).foldl
          (fun r x => if x.1 = d then reachMax r (some x.2) else r) none) := by
  unfold State.tableDemand State.leasesBySlot
  generalize (none : Reach) = r
  induction List.finRange 64 generalizing r with
  | nil => rfl
  | cons i is ih => cases h : s.leaseAt i <;> simp [h, ih, Lease.asks]

theorem AsksSame.tableDemand {s t : State} (h : AsksSame s t) (d : Dom) : t.tableDemand d = s.tableDemand d := by
  rw [State.tableDemand_eq, State.tableDemand_eq]
  exact congrArg _ (congrFun (congrArg _ (funext h)) _)

theorem State.endOffer_asks {c : Client} {s : State} {x : SlotNo × Lease} (h : s.leaseAt x.1 = some x.2) :
    AsksSame s (s.endOffer c x) := by
  intro i
  by_cases e : i = x.1
  · unfold State.endOffer
    rw [State.leaseAt_congr (State.notifyOwner_aside ..).slots, State.putLease_leaseAt, if_pos e, e, h]
    rfl
  · rw [State.endOffer_leaseAt e]

/-! ### Events that are no claims -/

/-- What an event that is no claim of the engine keeps: the table evolves with every demand on it as it was, the lease
demand of each controller stands, and so does the supervisor role. -/
structure Steady (s t : State) : Prop where
  evolves : Evolves s t
  asks : AsksSame s t
  leaseDemand : ∀ d, (t.ctrl d).leaseDemand = (s.ctrl d).leaseDemand
  supervisor : t.supervisor = s.supervisor

theorem Aside.steady {s t : State} (h : Aside s t) (lease : ∀ d, (t.ctrl d).leaseDemand = (s.ctrl d).leaseDemand)
    (supervisor : t.supervisor = s.supervisor) : Steady s t :=
  ⟨h.plains.evolves, .of_slots h.slots, lease, supervisor⟩

theorem Passed.steady {s t : State} (h : Passed s t) : Steady s t :=
  h.aside.steady h.leaseDemand h.frame.undisturbed.supervisor

theorem SlotRec.ticked_leaseAt (s : State) (i : SlotNo) :
    s.countTick.leaseAt i = (s.leaseAt i).map Lease.ticked := by
  unfold State.leaseAt
  rw [State.countTick_slot]
  unfold SlotRec.ticked
  cases h : (s.slot i).cond <;> simp [h]

theorem State.wholeTick_steady (order : List Dom) (s : State) : Steady s (s.wholeTick order) := by
  have after : Passed s.countTick (s.countTick.endTimers order).tickPulses :=
    (State.endTimers_passed _ order).trans (State.tickPulses_passed _)
  have slots : (s.wholeTick order).slots = s.countTick.slots := (s.wholeTick_slots order).1
  refine ⟨?_, fun i => ?_, fun d => ?_, ?_⟩
  · refine (Plain.count.plains.evolves.aside after.aside).aside ?_
    rw [State.wholeTick, State.endDelay_frame]
    exact State.setRest_aside _ _
  · rw [State.leaseAt_congr slots, SlotRec.ticked_leaseAt, Option.map_map]
    rfl
  · rw [State.wholeTick_ctrl, (State.endTimers_passed _ order).leaseDemand, State.countTick_ctrl]
  · rw [State.wholeTick, State.endDelay_frame]
    exact after.frame.undisturbed.supervisor

theorem State.tearDown_steady (c : Client) (s : State) : Steady s (s.tearDown c) := by
  have frame : OnlyClients s (s.tearDown c) := (State.setClient_frame ..).trans (State.homeLost_frame ..)
  refine ⟨.inl ((State.setClient_aside c s).plains.trans (State.homeLost_plains c _)), ?_, fun d => ?_, ?_⟩
  · unfold State.tearDown State.homeLost
    dsimp only
    refine AsksSame.trans ?_ (State.endOffersTo_keeps AsksSame .refl .trans c (fun _ _ h => State.endOffer_asks h) _)
    exact .of_slots (State.clearQueue_aside ..).slots
  · rw [frame.ctrl]
  · unfold OnlyClients at frame; rw [frame]

/-- Only ports and MISO differ. -/
def OnlyPorts (s t : State) : Prop := t = { s with ports := t.ports, miso := t.miso }

theorem OnlyPorts.refl (s : State) : OnlyPorts s s := rfl
theorem OnlyPorts.trans {s t u : State} (h : OnlyPorts s t) (k : OnlyPorts t u) : OnlyPorts s u := by
  cases s; cases t; cases u; simp_all [OnlyPorts]
theorem State.setPort_frame (c : Client) (q : Port) (s : State) : OnlyPorts s (s.setPort c q) := rfl
theorem State.driveMiso_frame (c : Client) (bs : List Byte) (s : State) : OnlyPorts s (s.driveMiso c bs) := rfl

theorem OnlyPorts.steady {s t : State} (h : OnlyPorts s t) : Steady s t := by
  unfold OnlyPorts at h
  rw [h]
  exact Aside.steady (.of_eq rfl rfl rfl rfl (fun _ => rfl) rfl) (fun _ => rfl) rfl

theorem State.acceptFrame_frame (c : Client) (r : Request) (s : State) : OnlyPorts s (s.acceptFrame c r) := by
  unfold State.acceptFrame
  split <;> exact State.setPort_frame ..

theorem State.discardAnswer_frame (c : Client) (s : State) : OnlyPorts s (s.discardAnswer c) := by
  unfold State.discardAnswer
  split
  · exact State.setPort_frame ..
  · exact .refl s
  · exact .refl s

theorem State.receive_frame (c : Client) (f : Frame) (s : State) : OnlyPorts s (s.receive c f) := by
  unfold State.receive
  split
  · exact State.setPort_frame ..
  · exact State.setPort_frame ..
  · exact State.setPort_frame ..
  · exact (State.discardAnswer_frame ..).trans (State.setPort_frame ..)
  · exact (State.discardAnswer_frame ..).trans (State.acceptFrame_frame ..)

theorem State.afterCollect_frame (c : Client) (n : Nat) (s : State) : OnlyPorts s (s.afterCollect c n) := by
  unfold State.afterCollect
  split
  · split
    · exact State.setPort_frame ..
    · exact .refl s
  · exact .refl s
  · exact .refl s

/-! ### The steps -/

/-- What a command can do in a state: nothing; a request taken; an internal claim taken; an event that is no claim; or a
step of RESET_N. -/
inductive Stepped (c : Instr) (s : State) : State → Prop
  | idle : Stepped c s s
  | taken {p : Client} {r : Request} (command : c = commandOf r.kind) : Stepped c s (s.taken p r)
  | claimed {u : State} (evolves : Evolves s.begin u) (supervisor : u.supervisor = s.supervisor) :
      Stepped c s u.handOn.judgeRest
  | event {u : State} (steady : Steady s.begin u) : Stepped c s u.judgeRest
  | reset (command : c = .resetAssert) : Stepped c s s.begin.dropAll.blank.judgeRest
  | start {plan1 plan0 : Bool} (command : c = .partStart plan1 plan0) (low : s.resetLow = true) :
      Stepped c s (State.start (planOf plan1 plan0) s.begin).judgeRest

section Steps

variable {c : Instr} {s t : State}

theorem occur_stepped {can : Bool} {event : State → State} (h : can = true → Steady s.begin (event s.begin))
    (e : s.occur can event = .next t) : Stepped c s t := by
  unfold State.occur at e
  split at e
  · next hc => cases e; exact .event (h hc)
  · cases e; exact .idle

theorem claim_stepped {can : Bool} {take : State → State}
    (h : Evolves s.begin (take s.begin) ∧ (take s.begin).supervisor = s.supervisor)
    (e : s.claim can take = .next t) : Stepped c s t := by
  unfold State.claim State.occur at e
  split at e
  · cases e; exact .claimed h.1 h.2
  · cases e; exact .idle

theorem take_stepped (k : ReqKind) (e : exec (commandOf k) s = .next t) : Stepped (commandOf k) s t := by
  rw [exec_commandOf] at e
  unfold State.take at e
  cases next : s.nextRequest with
  | none => rw [next] at e; cases e; exact .idle
  | some x =>
    obtain ⟨p, r⟩ := x
    rw [next] at e
    dsimp only at e
    unfold State.claim State.occur at e
    split at e
    · next can =>
      obtain rfl : r.kind = k := by simpa using (Bool.and_eq_true_iff.1 can).2
      cases e
      exact .taken rfl
    · cases e; exact .idle

theorem tick_stepped {can : Bool} {order : List Dom} (e : s.occur can (State.wholeTick order) = .next t) :
    Stepped c s t := occur_stepped (fun _ => State.wholeTick_steady order _) e

theorem OnlyClients.supervisor (h : OnlyClients s t) : t.supervisor = s.supervisor := by
  unfold OnlyClients at h; rw [h]

theorem State.takeTerm_supervisor (h : Handle) (s : State) : (s.takeTerm h).supervisor = s.supervisor := by
  unfold State.takeTerm
  dsimp only
  split
  · rfl
  · next l _ =>
    split
    · unfold State.lapse State.lapseRelease State.lapseRestart
      cases l.lapse with
      | release =>
        exact ((State.retire_frame ..).undisturbed.trans (State.notifyOwner_frame ..).undisturbed).supervisor
      | restart =>
        cases l.owner with
        | client c => exact ((State.retire_frame ..).clients.trans (State.restart_frame ..)).supervisor
        | boot => exact (State.retire_frame ..).undisturbed.supervisor
    · rfl

theorem State.takeWindow_supervisor (h : Handle) (s : State) : (s.takeWindow h).supervisor = s.supervisor := by
  unfold State.takeWindow
  dsimp only
  split
  · rfl
  · split
    · split
      · exact (State.notifyOwner_frame ..).undisturbed.supervisor
      · rfl
    · rfl

theorem State.takeAdoption_supervisor (s : State) : s.takeAdoption.supervisor = s.supervisor := by
  have lapses := foldl_keeps Undisturbed .refl .trans State.lapseBoot
    (fun t x => (t.retire_frame x.1).undisturbed.trans (State.notify_frame ..).undisturbed)
  unfold State.takeAdoption
  dsimp only
  split
  · exact (lapses _ _).supervisor
  · rfl

theorem State.fire_supervisor (w : WatchId) (s : State) : (s.fire w).supervisor = s.supervisor := by
  unfold State.fire
  split
  · rfl
  · split
    · rfl
    · next r _ _ _ =>
      exact (State.notify_frame ..).undisturbed.supervisor.trans
        (s.create_undisturbed r.slot (.client r.owner) r.template (some w)).supervisor

theorem execLineSample_stepped (e : execLineSample s = .next t) : Stepped c s t := by
  unfold execLineSample at e
  refine occur_stepped (fun _ => ?_) e
  exact ((State.sample_aside _).trans (State.setRest_aside _ _)).steady (fun _ => rfl) rfl

theorem execWakingEnd_stepped (e : execWakingEnd s = .next t) : Stepped c s t := by
  unfold execWakingEnd at e
  refine occur_stepped (fun _ => ?_) e
  exact ((State.setRest_aside _ _).trans (State.firstSample_aside _)).steady (fun _ => rfl) rfl

theorem execDemandChange_stepped {d : Dom} (e : execDemandChange d s = .next t) : Stepped c s t := by
  unfold execDemandChange at e
  refine occur_stepped (fun _ => ?_) e
  have moved := State.modCtrl_passed (f := fun r => { r with demandPending := false }) d s.begin
  exact (moved.trans (State.event_passed d _ (State.demandStep_passed d))).steady

theorem execParentChange_stepped {d : Dom} (e : execParentChange d s = .next t) : Stepped c s t := by
  unfold execParentChange at e
  refine occur_stepped (fun _ => ?_) e
  have moved := State.modCtrl_passed (f := fun r => { r with parentPending := false }) d s.begin
  exact (moved.trans (State.event_passed d _ (State.parentStep_passed d))).steady

theorem execPgoodPresent_stepped {d : Dom} (e : execPgoodPresent d s = .next t) : Stepped c s t := by
  unfold execPgoodPresent at e
  refine occur_stepped (fun _ => ?_) e
  have moved := State.modCtrl_passed (f := fun r => { r with pgood := true }) d s.begin
  dsimp only
  split
  · exact moved.steady
  · exact (moved.trans (State.event_passed d _ (State.pgoodStep_passed d))).steady

theorem execPgoodLoss_stepped {fall : PgoodFall} (e : execPgoodLoss fall s = .next t) : Stepped c s t := by
  unfold execPgoodLoss at e
  refine occur_stepped (fun _ => ?_) e
  have moved := State.modCtrl_passed (f := fun r => { r with pgood := false }) fall.domain s.begin
  dsimp only
  split
  · exact moved.steady
  · split
    · exact (moved.trans (State.modCtrl_passed ..)).steady
    · refine ((moved.trans ?_).trans (State.event_passed _ _ (State.lossStep_passed _))).steady
      exact State.modCtrl_passed ..

theorem execSend_stepped {o : Client} {cut : Bool} {bytes : List Byte} (e : execSend o cut bytes s = .next t) :
    Stepped c s t := by
  unfold execSend at e
  refine occur_stepped (fun _ => ?_) e
  dsimp only
  split
  · exact ((State.driveMiso_frame ..).trans (State.receive_frame ..)).steady
  · exact (State.driveMiso_frame ..).steady

theorem execCollect_stepped {o : Client} {cut : Option Nat} {n : Nat} (e : execCollect o cut n s = .next t) :
    Stepped c s t := by
  unfold execCollect at e
  refine occur_stepped (fun _ => ?_) e
  dsimp only
  split
  · exact (State.driveMiso_frame ..).steady
  · exact ((State.driveMiso_frame ..).trans (State.afterCollect_frame ..)).steady

theorem execIgnoredTransaction_stepped {o : Client} {cut : Bool} {bytes : List Byte}
    (e : execIgnoredTransaction o cut bytes s = .next t) : Stepped c s t := by
  unfold execIgnoredTransaction at e
  refine occur_stepped (fun _ => ?_) e
  dsimp only
  split
  · exact ((State.driveMiso_frame ..).trans (State.setPort_frame ..)).steady
  · exact (State.driveMiso_frame ..).steady

theorem execResetAssert_stepped (e : execResetAssert s = .next t) : Stepped .resetAssert s t := by
  unfold execResetAssert State.occur at e
  split at e
  · cases e; exact .reset rfl
  · cases e; exact .idle

theorem execPartStart_stepped {plan1 plan0 : Bool} (e : execPartStart plan1 plan0 s = .next t) :
    Stepped (.partStart plan1 plan0) s t := by
  unfold execPartStart State.occur at e
  split at e
  · next low =>
    rw [Host.Outcome.next.injEq] at e
    subst e
    exact .start rfl low
  · cases e; exact .idle

/-- Every command does one of the things of `Stepped`. -/
theorem exec_stepped (c : Instr) (e : exec c s = .next t) : Stepped c s t := by
  cases c with
  | leaseTake => exact take_stepped .leaseTake e
  | leaseRenew => exact take_stepped .leaseRenew e
  | leaseAlter => exact take_stepped .leaseAlter e
  | leaseRelease => exact take_stepped .leaseRelease e
  | leaseRead => exact take_stepped .leaseRead e
  | leaseList => exact take_stepped .leaseList e
  | leaseRevoke => exact take_stepped .leaseRevoke e
  | leaseOffer => exact take_stepped .leaseOffer e
  | leaseWithdraw => exact take_stepped .leaseWithdraw e
  | leaseAccept => exact take_stepped .leaseAccept e
  | leaseAdopt => exact take_stepped .leaseAdopt e
  | watchSet => exact take_stepped .watchSet e
  | watchDrop => exact take_stepped .watchDrop e
  | watchRead => exact take_stepped .watchRead e
  | linesRead => exact take_stepped .linesRead e
  | domainRead => exact take_stepped .domainRead e
  | domainSetup => exact take_stepped .domainSetup e
  | domainDivide => exact take_stepped .domainDivide e
  | domainClear => exact take_stepped .domainClear e
  | clientStatus => exact take_stepped .clientStatus e
  | clientClearCause => exact take_stepped .clientClearCause e
  | clientQuota => exact take_stepped .clientQuota e
  | clientRestart => exact take_stepped .clientRestart e
  | superPass => exact take_stepped .superPass e
  | noticeFetch => exact take_stepped .noticeFetch e
  | partIdent => exact take_stepped .partIdent e
  | remainingReachesZero i => exact tick_stepped e
  | offerWindowRunsOut i => exact tick_stepped e
  | adoptionWindowRunsOut => exact tick_stepped e
  | tick => exact tick_stepped e
  | restartPulseEnd c => exact tick_stepped e
  | restDelayEnd => exact tick_stepped e
  | rampEnd d => exact tick_stepped e
  | settleEnd d => exact tick_stepped e
  | lingerEnd d => exact tick_stepped e
  | dischargeEnd d => exact tick_stepped e
  | leaseTermExpiry h => exact claim_stepped ⟨(State.takeTerm_plains _ h).evolves, State.takeTerm_supervisor h _⟩ e
  | offerWindowExpiry h =>
    exact claim_stepped ⟨(State.takeWindow_plains _ h).evolves, State.takeWindow_supervisor h _⟩ e
  | adoptionWindowExpiry =>
    exact claim_stepped ⟨(State.takeAdoption_plains _).evolves, State.takeAdoption_supervisor _⟩ e
  | firing w => exact claim_stepped ⟨State.fire_evolves _ w, State.fire_supervisor w _⟩ e
  | lineSample => exact execLineSample_stepped e
  | wakeLineChange l high =>
    exact occur_stepped (fun _ => (State.moveLine_aside l high _).steady (fun _ => rfl) rfl) e
  | wakingEnd => exact execWakingEnd_stepped e
  | demandChange d => exact execDemandChange_stepped e
  | parentChange d => exact execParentChange_stepped e
  | pgoodPresent d => exact execPgoodPresent_stepped e
  | pgoodLoss fall => exact execPgoodLoss_stepped e
  | homeLostTeardown c => exact occur_stepped (fun _ => State.tearDown_steady c _) e
  | send c cut bytes => exact execSend_stepped e
  | collect c cut n => exact execCollect_stepped e
  | ignoredTransaction c cut bytes => exact execIgnoredTransaction_stepped e
  | resetAssert => exact execResetAssert_stepped e
  | partStart plan1 plan0 => exact execPartStart_stepped e

end Steps

end Sys2Proof.Machine

/-! ## Slots and watches pair, and every lease record is sound -/

namespace Sys2Proof.Machine

/-! ### The law of the table, read slot by slot and watch by watch -/

/-- Slots and watches pair (R1, R123). -/
structure Paired (s : State) : Prop where
  reserved : ∀ i w, (s.slot i).cond = .reserved w → ∃ r, s.watch w = some r ∧ r.state = .armed ∧ r.slot = i
  bound : ∀ i l w, s.leaseAt i = some l → l.binding = some w →
    ∃ r, s.watch w = some r ∧ r.state = .spent ∧ r.slot = i ∧ l.owner = .client r.owner
  armed : ∀ w r, s.watch w = some r → r.state = .armed → (s.slot r.slot).cond = .reserved w
  spent : ∀ w r, s.watch w = some r → r.state = .spent →
    (∃ l, s.leaseAt r.slot = some l ∧ l.binding = some w) ∧ r.mark = false

theorem slotPaired_iff (s : State) (i : SlotNo) :
    slotPaired s i = true ↔
      (∀ w, (s.slot i).cond = .reserved w → ∃ r, s.watch w = some r ∧ r.state = .armed ∧ r.slot = i)
      ∧ ∀ l, s.leaseAt i = some l → ∀ w, l.binding = some w →
        ∃ r, s.watch w = some r ∧ r.state = .spent ∧ r.slot = i ∧ l.owner = .client r.owner := by
  unfold slotPaired
  simp only [State.leaseAt_iff]
  cases (s.slot i).cond with
  | free => simp
  | reserved w => cases h : s.watch w <;> simp [h]
  | lease l =>
    cases hb : l.binding with
    | none => simp [hb]
    | some w => cases h : s.watch w <;> simp [hb, h]

theorem watchPaired_iff (s : State) (w : WatchId) :
    watchPaired s w = true ↔ ∀ r, s.watch w = some r →
      (r.state = .armed → (s.slot r.slot).cond = .reserved w)
      ∧ (r.state = .spent → (∃ l, s.leaseAt r.slot = some l ∧ l.binding = some w) ∧ r.mark = false) := by
  unfold watchPaired
  cases s.watch w with
  | none => simp
  | some r => cases h : r.state <;> simp [h, Option.bind_eq_some_iff]

theorem tableLaw_iff (s : State) : TableLaw s ↔ Paired s := by
  simp only [TableLaw, slotPaired_iff, watchPaired_iff]
  constructor
  · rintro ⟨slots, watches⟩
    exact ⟨fun i => (slots i).1, fun i l w h => (slots i).2 l h w, fun w r h => (watches w r h).1,
      fun w r h => (watches w r h).2⟩
  · rintro ⟨reserved, bound, armed, spent⟩
    exact ⟨fun i => ⟨reserved i, fun l h w => bound i l w h⟩, fun w r h => ⟨armed w r h, spent w r h⟩⟩

/-- Every lease record is sound, and so is every watch's template (R6, R8, R59, R123). -/
structure Sound (s : State) : Prop where
  lease : ∀ i l, s.leaseAt i = some l → leaseSound l = true
  template : ∀ w r, s.watch w = some r → r.template.term ≤ 65535

theorem leaseLaw_iff (s : State) : LeaseLaw s ↔ Sound s := by
  constructor
  · rintro ⟨lease, template⟩
    exact ⟨fun i l h => by simpa [h] using lease i, fun w r h => by simpa [h] using template w⟩
  · rintro ⟨lease, template⟩
    refine ⟨fun i => ?_, fun w => ?_⟩
    · cases h : s.leaseAt i with
      | none => rfl
      | some l => simpa using lease i l h
    · cases h : s.watch w with
      | none => rfl
      | some r => simpa using template w r h

/-! ### Moves that stand aside, amend, retire and count -/

variable {s t : State}

theorem Aside.watch_back (h : Aside s t) {w : WatchId} {r : Watch} (e : t.watch w = some r) :
    ∃ r₀, s.watch w = some r₀ ∧ WatchAlike r₀ r := by
  obtain ⟨f, alike, ef⟩ := h.watches w
  rw [ef, Option.map_eq_some_iff] at e
  obtain ⟨r₀, h₀, rfl⟩ := e
  exact ⟨r₀, h₀, alike r₀⟩

theorem Aside.watch_on (h : Aside s t) {w : WatchId} {r₀ : Watch} (e : s.watch w = some r₀) :
    ∃ r, t.watch w = some r ∧ WatchAlike r₀ r := by
  obtain ⟨f, alike, ef⟩ := h.watches w
  exact ⟨f r₀, by rw [ef, e]; rfl, alike r₀⟩

theorem Aside.slot (h : Aside s t) (i : SlotNo) : t.slot i = s.slot i := by simp only [State.slot, h.slots]
theorem Aside.leaseAt (h : Aside s t) (i : SlotNo) : t.leaseAt i = s.leaseAt i := State.leaseAt_congr h.slots i

theorem Aside.paired (h : Aside s t) (law : Paired s) : Paired t where
  reserved i w e := by
    rw [h.slot] at e
    obtain ⟨r₀, held, armed, slot⟩ := law.reserved i w e
    obtain ⟨r, held', alike⟩ := h.watch_on held
    exact ⟨r, held', alike.state.trans armed, alike.slot.trans slot⟩
  bound i l w e hb := by
    rw [h.leaseAt] at e
    obtain ⟨r₀, held, spent, slot, owner⟩ := law.bound i l w e hb
    obtain ⟨r, held', alike⟩ := h.watch_on held
    exact ⟨r, held', alike.state.trans spent, alike.slot.trans slot, alike.owner ▸ owner⟩
  armed w r e armed := by
    obtain ⟨r₀, held, alike⟩ := h.watch_back e
    rw [h.slot, alike.slot]
    exact law.armed w r₀ held (alike.state.symm.trans armed)
  spent w r e spent := by
    obtain ⟨r₀, held, alike⟩ := h.watch_back e
    have spent₀ := alike.state.symm.trans spent
    obtain ⟨lease, mark⟩ := law.spent w r₀ held spent₀
    rw [alike.slot]
    simp only [h.leaseAt]
    exact ⟨lease, Bool.eq_false_iff.2 fun marked => by rw [alike.mark spent₀ marked] at mark; cases mark⟩

theorem Aside.sound (h : Aside s t) (law : Sound s) : Sound t where
  lease i l e := law.lease i l (h.leaseAt i ▸ e)
  template w r e := by
    obtain ⟨r₀, held, alike⟩ := h.watch_back e
    exact alike.template ▸ law.template w r₀ held

/-- Where the watches stand, the leases keep owner and binding, and no RESERVED slot moves, the table stays paired. -/
theorem Paired.of_leases (law : Paired s) (watches : ∀ w, t.watch w = s.watch w)
    (reserved : ∀ i w, (t.slot i).cond = .reserved w ↔ (s.slot i).cond = .reserved w)
    (back : ∀ i l w, t.leaseAt i = some l → l.binding = some w →
      ∃ l₀, s.leaseAt i = some l₀ ∧ l₀.binding = some w ∧ l₀.owner = l.owner)
    (on : ∀ i l₀, s.leaseAt i = some l₀ → ∃ l, t.leaseAt i = some l ∧ l.binding = l₀.binding) : Paired t where
  reserved i w e := by rw [watches]; exact law.reserved i w ((reserved i w).1 e)
  bound i l w e hb := by
    obtain ⟨l₀, h₀, hb₀, owner⟩ := back i l w e hb
    rw [watches, ← owner]
    exact law.bound i l₀ w h₀ hb₀
  armed w r e armed := by rw [watches] at e; exact (reserved _ w).2 (law.armed w r e armed)
  spent w r e spent := by
    rw [watches] at e
    obtain ⟨⟨l₀, h₀, hb₀⟩, mark⟩ := law.spent w r e spent
    obtain ⟨l, h, hb⟩ := on _ l₀ h₀
    exact ⟨⟨l, h, hb.trans hb₀⟩, mark⟩

theorem Amends.paired {i : SlotNo} {l l' : Lease} (h : Amends s l l') (at_ : s.leaseAt i = some l)
    (sound : leaseSound l = true) (law : Paired s) : Paired (s.putLease i l') := by
  refine law.of_leases (fun _ => rfl) (fun j w => ?_) (fun j m w e hb => ?_) (fun j m e => ?_)
  · rw [State.putLease_slot]
    split
    · next hj => simp [hj, State.leaseAt_iff.1 at_]
    · rfl
  · rw [State.putLease_leaseAt] at e
    split at e
    · next hj =>
      obtain rfl := Option.some.inj e
      refine ⟨l, hj ▸ at_, h.binding ▸ hb, ?_⟩
      rcases h.owner with same | ⟨c, -, -, unbound⟩
      · exact same.symm
      · rw [h.binding, unbound sound] at hb; cases hb
    · exact ⟨m, e, hb, rfl⟩
  · rw [State.putLease_leaseAt]
    split
    · next hj =>
      rw [hj, at_, Option.some.injEq] at e
      exact ⟨l', rfl, e ▸ h.binding⟩
    · exact ⟨m, e, rfl⟩

theorem Amends.keeps_sound {i : SlotNo} {l l' : Lease} (h : Amends s l l') (at_ : s.leaseAt i = some l) (law : Sound s) :
    Sound (s.putLease i l') where
  lease j m e := by
    rw [State.putLease_leaseAt] at e
    split at e
    · exact Option.some.inj e ▸ h.sound (law.lease i l at_)
    · exact law.lease j m e
  template w r e := law.template w r e

theorem State.retire_watch_unbound {i : SlotNo} {l : Lease} (at_ : s.leaseAt i = some l) (unbound : l.binding = none)
    (v : WatchId) : (s.retire i).watch v = s.watch v := by
  unfold State.retire
  rw [at_]
  simp only [unbound]
  rfl

theorem State.retire_watch_bound {i : SlotNo} {l : Lease} {w : WatchId} (at_ : s.leaseAt i = some l)
    (bound : l.binding = some w) (v : WatchId) :
    (s.retire i).watch v = if v = w then (s.watch w).map (rearmedWatch s.wake) else s.watch v := by
  unfold State.retire
  rw [at_]
  simp only [bound]
  rw [State.rearm_watch]
  rfl

/-- A watch stands on the slot that is reserved for it, or whose lease is bound to it. -/
theorem Paired.partner (law : Paired s) {w : WatchId} {r : Watch} (held : s.watch w = some r) :
    (s.slot r.slot).cond = .reserved w ∨ ∃ l, s.leaseAt r.slot = some l ∧ l.binding = some w := by
  cases state : r.state with
  | armed => exact .inl (law.armed w r held state)
  | spent => exact .inr (law.spent w r held state).1

/-- Where one slot and the watch that stands on it, if any, move together into a pair again, the table stays paired. -/
theorem Paired.rewire (law : Paired s) (i : SlotNo) (p : Option WatchId)
    (slots : ∀ j, j ≠ i → t.slot j = s.slot j) (watches : ∀ v, p ≠ some v → t.watch v = s.watch v)
    (alone : ∀ v r, s.watch v = some r → (r.slot = i ↔ p = some v))
    (here : slotPaired t i = true) (there : ∀ v, p = some v → watchPaired t v = true) : Paired t := by
  have here := (slotPaired_iff t i).1 here
  have there := fun v h => (watchPaired_iff t v).1 (there v h)
  have leases : ∀ j, j ≠ i → t.leaseAt j = s.leaseAt j := fun j hj => by simp only [State.leaseAt, slots j hj]
  refine ⟨fun j w e => ?_, fun j l w e hb => ?_, fun w r e => ?_, fun w r e => ?_⟩
  · by_cases hj : j = i
    · subst hj; exact here.1 w e
    · rw [slots j hj] at e
      obtain ⟨r, held, state, slot⟩ := law.reserved j w e
      have apart : p ≠ some w := fun h => hj (slot.symm.trans ((alone w r held).2 h))
      exact ⟨r, (watches w apart).trans held, state, slot⟩
  · by_cases hj : j = i
    · subst hj; exact here.2 l e w hb
    · rw [leases j hj] at e
      obtain ⟨r, held, state, slot, owner⟩ := law.bound j l w e hb
      have apart : p ≠ some w := fun h => hj (slot.symm.trans ((alone w r held).2 h))
      exact ⟨r, (watches w apart).trans held, state, slot, owner⟩
  · by_cases hw : p = some w
    · exact (there w hw r e).1
    · rw [watches w hw] at e
      rw [slots _ fun h => hw ((alone w r e).1 h)]
      exact law.armed w r e
  · by_cases hw : p = some w
    · exact (there w hw r e).2
    · rw [watches w hw] at e
      rw [leases _ fun h => hw ((alone w r e).1 h)]
      exact law.spent w r e

theorem Paired.alone_lease (law : Paired s) {i : SlotNo} {l : Lease} (at_ : s.leaseAt i = some l) (v : WatchId)
    (r : Watch) (held : s.watch v = some r) : r.slot = i ↔ l.binding = some v := by
  constructor
  · rintro rfl
    rcases law.partner held with reserved | ⟨m, hm, hb⟩
    · rw [State.leaseAt_iff, reserved] at at_; cases at_
    · rw [at_, Option.some.injEq] at hm; exact hm ▸ hb
  · intro hb
    obtain ⟨r', held', -, slot, -⟩ := law.bound i l v at_ hb
    rw [held, Option.some.injEq] at held'
    exact held' ▸ slot

theorem Paired.alone_free (law : Paired s) {i : SlotNo} (free : (s.slot i).cond = .free) (v : WatchId)
    (r : Watch) (held : s.watch v = some r) : r.slot ≠ i := by
  rintro rfl
  rcases law.partner held with reserved | ⟨m, hm, -⟩
  · rw [free] at reserved; cases reserved
  · rw [State.leaseAt_iff, free] at hm; cases hm

theorem Paired.alone_reserved (law : Paired s) {i : SlotNo} {w : WatchId} (reserved : (s.slot i).cond = .reserved w)
    (v : WatchId) (r : Watch) (held : s.watch v = some r) : r.slot = i ↔ some w = some v := by
  constructor
  · rintro rfl
    rcases law.partner held with reserved' | ⟨m, hm, -⟩
    · rw [reserved] at reserved'; cases reserved'; rfl
    · rw [State.leaseAt_iff, reserved] at hm; cases hm
  · intro hw
    obtain rfl := Option.some.inj hw
    obtain ⟨r', held', -, slot⟩ := law.reserved i w reserved
    rw [held, Option.some.injEq] at held'
    exact held' ▸ slot

/-- Retiring a lease keeps slots and watches paired: a bound lease's watch is ARMED again on its slot (R2, R128). -/
theorem State.retire_paired (i : SlotNo) (law : Paired s) : Paired (s.retire i) := by
  cases at_ : s.leaseAt i with
  | none => rw [State.retire_none s i at_]; exact law
  | some l =>
    have slot := fun j => State.retire_slot s i j at_
    refine law.rewire i l.binding (fun j hj => by rw [slot, if_neg hj]) (fun v hv => ?_) (law.alone_lease at_) ?_
      fun w binding => ?_
    · cases binding : l.binding with
      | none => exact State.retire_watch_unbound at_ binding v
      | some w =>
        rw [State.retire_watch_bound at_ binding, if_neg]
        rintro rfl
        exact hv binding
    · cases binding : l.binding with
      | none => simp [slotPaired, slot, binding]
      | some w =>
        obtain ⟨r, held, -, rslot, -⟩ := law.bound i l w at_ binding
        simp [slotPaired, slot, binding, State.retire_watch_bound at_ binding, held, rearmedWatch_eq, rslot]
    · obtain ⟨r, held, -, rslot, -⟩ := law.bound i l w at_ binding
      simp [watchPaired, slot, binding, State.retire_watch_bound at_ binding, held, rearmedWatch_eq, rslot]

/-- A retirement keeps every watch's owner and template. -/
theorem State.retire_watch_back {i : SlotNo} {w : WatchId} {r : Watch} (e : (s.retire i).watch w = some r) :
    ∃ r₀, s.watch w = some r₀ ∧ r.owner = r₀.owner ∧ r.template = r₀.template := by
  cases at_ : s.leaseAt i with
  | none => rw [State.retire_none s i at_] at e; exact ⟨r, e, rfl, rfl⟩
  | some l =>
    cases binding : l.binding with
    | none => rw [State.retire_watch_unbound at_ binding] at e; exact ⟨r, e, rfl, rfl⟩
    | some v =>
      rw [State.retire_watch_bound at_ binding] at e
      split at e
      · next h =>
        obtain ⟨r₀, h₀, rfl⟩ := Option.map_eq_some_iff.1 e
        exact ⟨r₀, h ▸ h₀, rfl, rfl⟩
      · exact ⟨r, e, rfl, rfl⟩

theorem State.retire_sound (i : SlotNo) (law : Sound s) : Sound (s.retire i) where
  lease j l e := by
    rw [State.retire_leaseAt] at e
    split at e
    · cases e
    · exact law.lease j l e
  template w r e := by
    obtain ⟨r₀, h₀, -, template⟩ := State.retire_watch_back e
    exact template ▸ law.template w r₀ h₀

/-- What a sound lease record is, clause by clause (R6, R8, R59). -/
theorem leaseSound_iff {l : Lease} :
    leaseSound l = true ↔
      l.term ≤ 65535 ∧ (l.remaining = none → l.term = 0) ∧ (∀ n, l.remaining = some n → l.term ≠ 0 ∧ n ≤ l.term)
      ∧ (l.owner = .boot → l.lapse = .release ∧ l.survives = false ∧ l.offer = none ∧ l.binding = none)
      ∧ ∀ o, l.offer = some o → l.binding = none ∧ l.owner ≠ .client o.target ∧ o.window ≤ 4095 := by
  unfold leaseSound
  cases l.remaining <;> cases l.owner <;> cases l.offer <;> simp [and_assoc]

theorem ticked_sound {l : Lease} (h : leaseSound l = true) : leaseSound l.ticked = true := by
  obtain ⟨term, untimed, timed, boot, offer⟩ := leaseSound_iff.1 h
  refine leaseSound_iff.2 ⟨term, fun e => untimed ?_, fun n e => ?_, fun e => ?_, fun o e => ?_⟩
  · exact Option.map_eq_none_iff.1 e
  · obtain ⟨m, hm, rfl⟩ := Option.map_eq_some_iff.1 e
    exact ⟨(timed m hm).1, (Nat.sub_le m 1).trans (timed m hm).2⟩
  · obtain ⟨lapse, survives, none, unbound⟩ := boot e
    exact ⟨lapse, survives, Option.map_eq_none_iff.2 none, unbound⟩
  · obtain ⟨m, hm, rfl⟩ := Option.map_eq_some_iff.1 e
    obtain ⟨unbound, owner, window⟩ := offer m hm
    exact ⟨unbound, owner, (Nat.sub_le _ 1).trans window⟩

theorem State.countTick_paired (law : Paired s) : Paired s.countTick := by
  refine law.of_leases (fun _ => rfl) (fun i w => ?_) (fun i l w e hb => ?_) (fun i l e => ?_)
  · rw [State.countTick_slot]
    unfold SlotRec.ticked
    cases h : (s.slot i).cond <;> simp [h]
  · rw [SlotRec.ticked_leaseAt, Option.map_eq_some_iff] at e
    obtain ⟨l₀, h₀, rfl⟩ := e
    exact ⟨l₀, h₀, hb, rfl⟩
  · exact ⟨l.ticked, by rw [SlotRec.ticked_leaseAt, e]; rfl, rfl⟩

theorem State.countTick_sound (law : Sound s) : Sound s.countTick where
  lease i l e := by
    rw [SlotRec.ticked_leaseAt, Option.map_eq_some_iff] at e
    obtain ⟨l₀, h₀, rfl⟩ := e
    exact ticked_sound (law.lease i l₀ h₀)
  template := law.template

/-- Every plain move keeps the table paired and its records sound. -/
theorem Plain.keeps (h : Plain s t) (law : Paired s) (sound : Sound s) : Paired t ∧ Sound t := by
  cases h with
  | aside h => exact ⟨h.paired law, h.sound sound⟩
  | amend at_ h => exact ⟨h.paired at_ (sound.lease _ _ at_) law, h.keeps_sound at_ sound⟩
  | retire i => exact ⟨State.retire_paired i law, State.retire_sound i sound⟩
  | quota => exact ⟨⟨law.1, law.2, law.3, law.4⟩, ⟨sound.1, sound.2⟩⟩
  | dropTerm => exact ⟨⟨law.1, law.2, law.3, law.4⟩, ⟨sound.1, sound.2⟩⟩
  | dropWindow => exact ⟨⟨law.1, law.2, law.3, law.4⟩, ⟨sound.1, sound.2⟩⟩
  | count => exact ⟨State.countTick_paired law, State.countTick_sound sound⟩

/-! ### First moves -/

/-- What the renumbering of a creation does to a creation number: nothing before the counter's last value (R10). -/
def State.renumbering (s : State) : Nat → Nat := if s.counter = Config.counterMax then s.renumber else id

theorem SlotRec.renumbered_id (r : SlotRec) : r.renumbered id = r := by
  unfold SlotRec.renumbered
  split
  · next l h => cases r; cases h; rfl
  · rfl
  · rfl

theorem State.makeRoom_renumbered (s : State) (i : SlotNo) :
    s.makeRoom.slot i = (s.slot i).renumbered s.renumbering := by
  rw [State.makeRoom_slot, State.renumbering]
  split
  · rfl
  · rw [SlotRec.renumbered_id]

theorem State.makeRoom_leaseAt (s : State) (i : SlotNo) :
    s.makeRoom.leaseAt i = (s.leaseAt i).map (fun l => { l with creation := s.renumbering l.creation }) := by
  unfold State.leaseAt
  rw [State.makeRoom_renumbered]
  unfold SlotRec.renumbered
  cases h : (s.slot i).cond <;> simp [h]

theorem State.makeRoom_reserved (s : State) (i : SlotNo) (w : WatchId) :
    (s.makeRoom.slot i).cond = .reserved w ↔ (s.slot i).cond = .reserved w := by
  rw [State.makeRoom_renumbered]
  unfold SlotRec.renumbered
  cases h : (s.slot i).cond <;> simp [h]

theorem State.makeRoom_free (s : State) (i : SlotNo) :
    (s.makeRoom.slot i).cond = .free ↔ (s.slot i).cond = .free := by
  rw [State.makeRoom_renumbered]
  unfold SlotRec.renumbered
  cases h : (s.slot i).cond <;> simp [h]

theorem State.makeRoom_watch (s : State) (w : WatchId) : s.makeRoom.watch w = s.watch w := by
  rw [State.makeRoom_frame]; rfl

theorem State.create_watch (s : State) (i : SlotNo) (o : Owner) (a : Template) (b : Option WatchId) (w : WatchId) :
    (s.create i o a b).watch w = s.watch w := by
  rw [State.create_frame]; rfl

theorem State.create_leaseAt (s : State) (i : SlotNo) (o : Owner) (a : Template) (b : Option WatchId) (j : SlotNo) :
    (s.create i o a b).leaseAt j
      = if j = i then some (newLease (s.makeRoom.counter + 1) o a b) else s.makeRoom.leaseAt j := by
  unfold State.leaseAt
  rw [State.create_slot]
  by_cases h : j = i <;> simp [h]

/-- A renumbering keeps the table paired (R10). -/
theorem State.makeRoom_paired (law : Paired s) : Paired s.makeRoom := by
  refine law.of_leases s.makeRoom_watch (fun i w => s.makeRoom_reserved i w) (fun i l w e hb => ?_) (fun i l e => ?_)
  · rw [State.makeRoom_leaseAt, Option.map_eq_some_iff] at e
    obtain ⟨l₀, h₀, rfl⟩ := e
    exact ⟨l₀, h₀, hb, rfl⟩
  · exact ⟨{ l with creation := s.renumbering l.creation }, by rw [State.makeRoom_leaseAt, e]; rfl, rfl⟩

theorem State.create_sound {i : SlotNo} {c : Client} {a : Template} {b : Option WatchId} (term : a.term ≤ 65535)
    (law : Sound s) : Sound (s.create i (.client c) a b) where
  lease j l e := by
    rw [State.create_leaseAt] at e
    split at e
    · exact Option.some.inj e ▸ newLease_sound term
    · rw [State.makeRoom_leaseAt, Option.map_eq_some_iff] at e
      obtain ⟨l₀, h₀, rfl⟩ := e
      exact law.lease j l₀ h₀
  template w r e := law.template w r (s.create_watch i _ a b w ▸ e)

theorem State.create_paired {i : SlotNo} {o : Owner} {a : Template} (free : (s.slot i).cond = .free)
    (law : Paired s) : Paired (s.create i o a none) := by
  have law := State.makeRoom_paired law
  have free := (s.makeRoom_free i).2 free
  refine law.rewire i none (fun j hj => by rw [State.create_slot, if_neg hj])
    (fun v _ => (s.create_watch ..).trans (s.makeRoom_watch v).symm)
    (fun v r held => iff_of_false (law.alone_free free v r held) nofun) ?_ nofun
  simp [slotPaired, State.create_slot, newLease]

/-- A watch replaced by one with a template a lease can carry keeps the records sound. -/
theorem Sound.setWatch (law : Sound s) (w : WatchId) {r : Option Watch}
    (term : ∀ x, r = some x → x.template.term ≤ 65535) : Sound (s.setWatch w r) where
  lease := law.lease
  template v x e := by
    rw [State.setWatch_watch] at e
    split at e
    · exact term x e
    · exact law.template v x e

/-- The firing of an ARMED watch turns the pair of its reserved slot into that of its lease (R127). -/
theorem State.fire_paired {w : WatchId} {r : Watch} (held : s.watch w = some r) (armed : r.state = .armed)
    (law : Paired s) :
    Paired ((s.create r.slot (.client r.owner) r.template (some w)).setWatch w
      (some { r with state := .spent, mark := false })) := by
  have law' := State.makeRoom_paired law
  have reserved := (s.makeRoom_reserved r.slot w).2 (law.armed w r held armed)
  refine law'.rewire r.slot (some w) (fun j hj => ?_) (fun v hv => ?_) (law'.alone_reserved reserved) ?_ fun v hv => ?_
  · rw [State.setWatch_slot, State.create_slot, if_neg hj]
  · have apart : v ≠ w := fun h => hv (h ▸ rfl)
    rw [State.setWatch_watch_ne _ _ _ apart, State.create_watch, State.makeRoom_watch]
  · simp [slotPaired, State.create_slot, newLease]
  · obtain rfl := Option.some.inj hv
    simp [watchPaired, State.leaseAt, State.create_slot, newLease]

/-- A new watch reserves a FREE slot (R125). -/
theorem reserve_paired {w : WatchId} {i : SlotNo} {r : Watch} (room : s.watch w = none)
    (free : (s.slot i).cond = .free) (armed : r.state = .armed) (slot : r.slot = i) (law : Paired s) :
    Paired ((s.setSlot i { gen := (s.slot i).gen, cond := .reserved w }).setWatch w (some r)) := by
  refine law.rewire i (some w) (fun j hj => State.setSlot_slot_ne s i _ hj) (fun v hv => ?_) (fun v x held => ?_) ?_
    fun v hv => ?_
  · have apart : v ≠ w := fun h => hv (h ▸ rfl)
    rw [State.setWatch_watch_ne _ _ _ apart, State.setSlot_watch]
  · refine iff_of_false (law.alone_free free v x held) fun h => ?_
    rw [← Option.some.inj h, room] at held
    cases held
  · simp [slotPaired, armed, slot]
  · obtain rfl := Option.some.inj hv
    simp [watchPaired, armed, slot]

/-- A dropped watch leaves its slot FREE, or its lease unbound (R129, R130). -/
theorem State.dropWatch_paired {w : WatchId} {r : Watch} (held : s.watch w = some r) (law : Paired s) :
    Paired (s.dropWatch w r) := by
  cases state : r.state with
  | armed =>
    have reserved := law.armed w r held state
    refine law.rewire r.slot (some w) (fun j hj => ?_) (fun v hv => ?_) (law.alone_reserved reserved) ?_ fun v hv => ?_
    · simp [State.dropWatch, state, State.setSlot_slot_ne _ _ _ hj]
    · have apart : v ≠ w := fun h => hv (h ▸ rfl)
      simp [State.dropWatch, state, State.setWatch_watch_ne _ _ _ apart]
    · simp [slotPaired, State.dropWatch, state]
    · obtain rfl := Option.some.inj hv
      simp [watchPaired, State.dropWatch, state]
  | spent =>
    obtain ⟨⟨l, at_, binding⟩, -⟩ := law.spent w r held state
    refine law.rewire r.slot (some w) (fun j hj => ?_) (fun v hv => ?_) (binding ▸ law.alone_lease at_) ?_ fun v hv => ?_
    · simp [State.dropWatch, state, at_, State.putLease_slot, hj]
    · have apart : v ≠ w := fun h => hv (h ▸ rfl)
      simp [State.dropWatch, state, at_, State.putLease, State.setWatch_watch_ne _ _ _ apart]
    · simp [slotPaired, State.dropWatch, state, at_, State.putLease_slot]
    · obtain rfl := Option.some.inj hv
      simp [watchPaired, State.dropWatch, state, at_, State.putLease]

theorem State.dropWatch_leaseAt {w : WatchId} {r : Watch} {j : SlotNo} {l : Lease}
    (e : (s.dropWatch w r).leaseAt j = some l) :
    ∃ l₀, s.leaseAt j = some l₀ ∧ (l = l₀ ∨ l = { l₀ with binding := none }) := by
  unfold State.dropWatch at e
  dsimp only at e
  split at e
  · rw [State.leaseAt_iff, State.setSlot_slot] at e
    split at e
    · cases e
    · exact ⟨l, State.leaseAt_iff.2 e, .inl rfl⟩
  · split at e
    · next m hm =>
      rw [State.putLease_leaseAt] at e
      split at e
      · next hj => exact ⟨m, hj ▸ hm, .inr (Option.some.inj e).symm⟩
      · exact ⟨l, e, .inl rfl⟩
    · exact ⟨l, e, .inl rfl⟩

theorem unbound_sound {l : Lease} (h : leaseSound l = true) : leaseSound { l with binding := none } = true := by
  obtain ⟨term, untimed, timed, boot, offer⟩ := leaseSound_iff.1 h
  refine leaseSound_iff.2 ⟨term, untimed, timed, fun e => ?_, fun o e => ⟨rfl, (offer o e).2⟩⟩
  obtain ⟨lapse, survives, none, -⟩ := boot e
  exact ⟨lapse, survives, none, rfl⟩

theorem State.dropWatch_watch {w : WatchId} {r : Watch} (s : State) (v : WatchId) :
    (s.dropWatch w r).watch v = if v = w then none else s.watch v := by
  rw [← State.setWatch_watch s w none v]
  unfold State.dropWatch
  dsimp only
  split
  · rfl
  · split <;> rfl

theorem State.dropWatch_sound {w : WatchId} {r : Watch} (law : Sound s) : Sound (s.dropWatch w r) where
  lease j l e := by
    obtain ⟨l₀, h₀, rfl | rfl⟩ := State.dropWatch_leaseAt e
    · exact law.lease j l h₀
    · exact unbound_sound (law.lease j l₀ h₀)
  template v x e := by
    rw [State.dropWatch_watch] at e
    split at e
    · cases e
    · exact law.template v x e

theorem Sound.reserve (law : Sound s) (i : SlotNo) (w : WatchId) :
    Sound (s.setSlot i { gen := (s.slot i).gen, cond := .reserved w }) where
  lease j l e := by
    rw [State.leaseAt_iff, State.setSlot_slot] at e
    split at e
    · cases e
    · exact law.lease j l (State.leaseAt_iff.2 e)
  template := law.template

theorem First.paired (h : First s t) (law : Paired s) : Paired t := by
  cases h with
  | take free quota term => exact State.create_paired free law
  | fire held armed => exact State.fire_paired held armed law
  | reserve room free quota armed slot term => exact reserve_paired room free armed slot law
  | drop held => exact State.dropWatch_paired held law

theorem First.sound (h : First s t) (law : Sound s) : Sound t := by
  cases h with
  | take free quota term => exact State.create_sound term law
  | fire held armed =>
    have term := law.template _ _ held
    refine (State.create_sound term law).setWatch _ fun x hx => ?_
    obtain rfl := Option.some.inj hx
    exact term
  | reserve room free quota armed slot term =>
    exact (law.reserve _ _).setWatch _ fun x hx => Option.some.inj hx ▸ term
  | drop held => exact State.dropWatch_sound law

theorem Plains.keeps (h : Plains s t) (law : Paired s) (sound : Sound s) : Paired t ∧ Sound t := by
  induction h with
  | refl => exact ⟨law, sound⟩
  | tail _ move ih => exact move.keeps ih.1 ih.2

/-- Whatever evolves keeps the table paired and its records sound. -/
theorem Evolves.keeps (h : Evolves s t) (law : Paired s) (sound : Sound s) : Paired t ∧ Sound t := by
  rcases h with h | ⟨u, first, aside⟩
  · exact h.keeps law sound
  · exact ⟨aside.paired (first.paired law), aside.sound (first.sound sound)⟩

end Sys2Proof.Machine

/-! ## The table that RESET_N leaves -/

namespace Sys2Proof.Machine

/-! ### The boot leases (R164) -/

/-- The lease of place `n` in a plan. -/
def bootLease (window n : Nat) (x : Dom × Level) : Lease := newLease (n + 1) .boot (bootTemplate x window) none

/-- A slot of a table that holds the leases of a plan and nothing else. -/
def planSlot (plan : List (Dom × Level)) (window : Nat) (i : SlotNo) : SlotRec :=
  match plan[i.1]? with
  | none => SlotRec.initial
  | some x => { gen := 0, cond := .lease (bootLease window i.1 x) }

/-- The table holds the leases of a plan, numbered in plan order, and nothing else. -/
structure Installed (plan : List (Dom × Level)) (window : Nat) (s : State) : Prop where
  slot : ∀ i, s.slot i = planSlot plan window i
  counter : s.counter = plan.length

/-- The table and the engine as RESET_N leaves them, under a plan, or none while it is low (R162, R164). -/
structure Fresh (plan : List (Dom × Level)) (window : Nat) (s : State) : Prop extends Installed plan window s where
  watch : ∀ w, s.watch w = none
  termClaims : s.termClaims = []
  windowClaims : s.windowClaims = []
  quota : ∀ c, (s.client c).quota = Config.defaultQuota

variable {s t : State} {plan : List (Dom × Level)} {window : Nat}

theorem planSlot_some {i : SlotNo} {x : Dom × Level} (h : plan[i.1]? = some x) :
    planSlot plan window i = { gen := 0, cond := .lease (bootLease window i.1 x) } := by
  unfold planSlot; rw [h]

theorem planSlot_none {i : SlotNo} (h : plan[i.1]? = none) : planSlot plan window i = SlotRec.initial := by
  unfold planSlot; rw [h]

/-- The next lease of a plan goes to the slot after those installed (R3, R164). -/
theorem Installed.next (h : Installed plan window s) (x : Dom × Level) (room : plan.length < 64) :
    Installed (plan ++ [x]) window (s.install window x) := by
  have low : s.counter ≠ Config.counterMax := by
    rw [h.counter]; unfold Config.counterMax; omega
  have free : s.freeSlot = some ⟨plan.length, room⟩ := by
    refine State.freeSlot_iff.2 ⟨?_, fun j hj => ?_⟩
    · rw [h.slot, planSlot_none (by simp)]; rfl
    · have held : plan[j.1]? = some plan[j.1] := List.getElem?_eq_getElem hj
      rw [h.slot, planSlot_some held]
      exact nofun
  unfold State.install
  rw [free]
  dsimp only
  refine ⟨fun i => ?_, ?_⟩
  · rw [State.create_slot, State.makeRoom_same s low]
    by_cases hi : i = ⟨plan.length, room⟩
    · subst hi
      rw [if_pos rfl, planSlot_some (x := x) (by simp), h.slot, planSlot_none (by simp), h.counter]
      rfl
    · rw [if_neg hi, h.slot]
      have apart : i.1 ≠ plan.length := fun e => hi (Fin.ext e)
      have same : (plan ++ [x])[i.1]? = plan[i.1]? := by
        rw [List.getElem?_append]
        split
        · rfl
        · rw [List.getElem?_eq_none (by simp; omega), List.getElem?_eq_none (by omega)]
      unfold planSlot
      rw [same]
  · rw [State.create_counter, State.makeRoom_same s low, h.counter, List.length_append]; rfl

theorem Installed.all (h : Installed plan window s) (xs : List (Dom × Level)) (room : plan.length + xs.length ≤ 64) :
    Installed (plan ++ xs) window (xs.foldl (State.install window) s) := by
  induction xs generalizing plan s with
  | nil => simpa using h
  | cons x xs ih =>
    rw [List.length_cons] at room
    have rest := ih (h.next x (by omega)) (by rw [List.length_append, List.length_singleton]; omega)
    rwa [List.append_assoc] at rest

theorem State.install_frame (window : Nat) (s : State) (x : Dom × Level) :
    s.install window x
      = { s with slots := (s.install window x).slots, counter := (s.install window x).counter } := by
  unfold State.install
  split
  · exact State.create_frame ..
  · rfl

/-- Installing a plan touches the slots and the counter only. -/
theorem State.installs_frame (window : Nat) (xs : List (Dom × Level)) (s : State) :
    xs.foldl (State.install window) s
      = { s with
          slots := (xs.foldl (State.install window) s).slots
          counter := (xs.foldl (State.install window) s).counter } := by
  refine foldl_keeps (fun s t => t = { s with slots := t.slots, counter := t.counter }) (fun _ => rfl) ?_ _
    (State.install_frame window) xs s
  intro s t u h k
  rw [k, h]

/-! ### The states after RESET_N -/

theorem State.blank_fresh (s : State) (window : Nat) : Fresh [] window s.blank where
  slot i := by simp [State.blank, State.reset, State.slot, planSlot]
  counter := rfl
  watch w := by simp [State.blank, State.reset, State.watch]
  termClaims := rfl
  windowClaims := rfl
  quota c := by simp [State.blank, State.reset, State.client, ClientRec.initial]

theorem Aside.fresh (h : Aside s t) (fresh : Fresh plan window s) : Fresh plan window t where
  slot i := (h.slot i).trans (fresh.slot i)
  counter := h.counter.trans fresh.counter
  watch w := by
    obtain ⟨f, -, e⟩ := h.watches w
    rw [e, fresh.watch]; rfl
  termClaims := h.termClaims.trans fresh.termClaims
  windowClaims := h.windowClaims.trans fresh.windowClaims
  quota c := (h.quota c).trans (fresh.quota c)

/-- The part blank and released on a plan: the first step of a part start (R164). -/
def State.released (plan : Fin 4) (s : State) : State := { s.blank with plan := plan, resetLow := false }

/-- The leases of the plan installed in the part released: the next steps of a part start (R164). -/
def State.planted (plan : Fin 4) (s : State) : State :=
  (Config.planRom plan).1.foldl (State.install (Config.planRom plan).2) (s.released plan)

/-- The adoption window opened (R165). -/
def State.openWindow (n : Nat) (s : State) : State := { s with adoption := some n }

/-- A part start, step by step (R164). -/
theorem State.start_eq (plan : Fin 4) (s : State) :
    State.start plan s
      = ((s.planted plan).openWindow (Config.planRom plan).2).firstSample.planDemand.raisePlan := rfl

theorem State.released_aside (plan : Fin 4) (s : State) : Aside s.blank (s.released plan) :=
  .of_eq rfl rfl rfl rfl (fun _ => rfl) rfl
theorem State.openWindow_aside (n : Nat) (s : State) : Aside s (s.openWindow n) :=
  .of_eq rfl rfl rfl rfl (fun _ => rfl) rfl

theorem planRom_length (plan : Fin 4) : (Config.planRom plan).1.length ≤ 5 := by
  fin_cases plan <;> decide
theorem planRom_window (plan : Fin 4) : 0 < (Config.planRom plan).2 ∧ (Config.planRom plan).2 ≤ 8192 := by
  fin_cases plan <;> decide

theorem State.planted_frame (plan : Fin 4) (s : State) :
    s.planted plan
      = { s.released plan with slots := (s.planted plan).slots, counter := (s.planted plan).counter } :=
  State.installs_frame ..

theorem State.planted_fresh (plan : Fin 4) (s : State) :
    Fresh (Config.planRom plan).1 (Config.planRom plan).2 (s.planted plan) := by
  have released := (s.released_aside plan).fresh (State.blank_fresh s (Config.planRom plan).2)
  have room : ([] : List (Dom × Level)).length + (Config.planRom plan).1.length ≤ 64 := by
    have := planRom_length plan
    simp only [List.length_nil]
    omega
  have installed := released.toInstalled.all _ room
  have frame := s.planted_frame plan
  refine ⟨installed, fun w => ?_, ?_, ?_, fun c => ?_⟩
  · rw [← released.watch w, frame]; rfl
  · rw [← released.termClaims, frame]
  · rw [← released.windowClaims, frame]
  · rw [← released.quota c, frame]; rfl

/-- The demands of a plan change controllers only. -/
theorem State.planDemand_frame (s : State) : s.planDemand = { s with ctrls := s.planDemand.ctrls } := by
  have trans : ∀ {s t u : State}, t = { s with ctrls := t.ctrls } → u = { t with ctrls := u.ctrls } →
      u = { s with ctrls := u.ctrls } := by
    intro s t u h k
    rw [k, h]
  exact trans (foldl_keeps (fun s t => t = { s with ctrls := t.ctrls }) (fun _ => rfl) trans
      (fun t d => t.modCtrl d (fun r => { r with leaseDemand := t.tableDemand d })) (fun _ _ => rfl) _ s)
    (foldl_keeps (fun s t => t = { s with ctrls := t.ctrls }) (fun _ => rfl) trans
      (fun t d => (t.modCtrl d (fun r => { r with derivedDemand := t.derivedFrom d })).recount d) (fun _ _ => rfl) _ _)

theorem State.raisePlan_passed (s : State) : Passed s s.raisePlan := by
  refine foldl_keeps _ Passed.refl Passed.trans _ (fun t d => ?_) _ _
  split
  · exact .refl t
  · exact t.event_passed d (State.toPowering_passed d)

/-- A part start is the installation of its plan, then steps that stand aside of the table (R164). -/
theorem State.start_aside (plan : Fin 4) (s : State) : Aside (s.planted plan) (State.start plan s) := by
  have sampled := ((s.planted plan).openWindow_aside (Config.planRom plan).2).trans (State.firstSample_aside _)
  rw [State.start_eq]
  generalize ((s.planted plan).openWindow (Config.planRom plan).2).firstSample = u at sampled ⊢
  have demanded : Aside u u.planDemand := by rw [State.planDemand_frame]; exact u.setCtrls_aside _
  exact (sampled.trans demanded).trans (State.raisePlan_passed _).aside

theorem State.start_fresh (plan : Fin 4) (s : State) :
    Fresh (Config.planRom plan).1 (Config.planRom plan).2 (State.start plan s) :=
  (s.start_aside plan).fresh (s.planted_fresh plan)

/-! ### The laws there -/

theorem Fresh.leaseAt (h : Fresh plan window s) (i : SlotNo) :
    s.leaseAt i = plan[i.1]?.map (bootLease window i.1) := by
  unfold State.leaseAt
  rw [h.slot, planSlot]
  cases plan[i.1]? <;> simp [SlotRec.initial]

theorem Fresh.not_reserved (h : Fresh plan window s) (i : SlotNo) (w : WatchId) : (s.slot i).cond ≠ .reserved w := by
  rw [h.slot, planSlot]
  cases plan[i.1]? <;> simp [SlotRec.initial]

theorem Fresh.lease_eq (h : Fresh plan window s) {i : SlotNo} {l : Lease} (e : s.leaseAt i = some l) :
    ∃ x, plan[i.1]? = some x ∧ l = bootLease window i.1 x := by
  rw [h.leaseAt, Option.map_eq_some_iff] at e
  obtain ⟨x, hx, rfl⟩ := e
  exact ⟨x, hx, rfl⟩

theorem Fresh.paired (h : Fresh plan window s) : Paired s where
  reserved i w e := absurd e (h.not_reserved i w)
  bound i l w e hb := by
    obtain ⟨x, -, rfl⟩ := h.lease_eq e
    cases hb
  armed w r e := by rw [h.watch] at e; cases e
  spent w r e := by rw [h.watch] at e; cases e

theorem bootLease_sound {n : Nat} {x : Dom × Level} (h : window ≤ 65535) :
    leaseSound (bootLease window n x) = true := by
  unfold leaseSound bootLease newLease bootTemplate
  by_cases h0 : window = 0 <;> simp [h0, h]

theorem Fresh.sound (h : Fresh plan window s) (bound : window ≤ 65535) : Sound s where
  lease i l e := by
    obtain ⟨x, -, rfl⟩ := h.lease_eq e
    exact bootLease_sound bound
  template w r e := by rw [h.watch] at e; cases e

/-- What a step of RESET_N leaves: a fresh table, under the plan of the straps after PART_START. -/
theorem reset_fresh (s : State) : Fresh [] 0 s.begin.dropAll.blank.judgeRest :=
  (State.judgeRest_aside _).fresh (State.blank_fresh _ _)

theorem started_fresh (plan : Fin 4) (s : State) :
    Fresh (Config.planRom plan).1 (Config.planRom plan).2 (State.start plan s.begin).judgeRest :=
  (State.judgeRest_aside _).fresh (State.start_fresh plan _)

/-- A step of an empty queue idles; any other runs a command on the state but for its queue. -/
theorem step_exec (e : step s = .next t) : t = s ∨ ∃ c rest, exec c { s with pending := rest } = .next t := by
  unfold step at e
  split at e
  · exact .inl (Host.Outcome.next.inj e).symm
  · next c rest _ => exact .inr ⟨c, rest, e⟩

/-- What a command can do to the table: leave it aside, evolve it, or leave a fresh one. -/
theorem Stepped.table {c : Instr} (h : Stepped c s t) :
    (∃ u, Aside s u ∧ Evolves u t) ∨ ∃ plan window, Fresh plan window t ∧ plan.length ≤ 5 ∧ window ≤ 8192 := by
  have handed : ∀ {u}, Evolves s.begin u → Evolves s.begin u.handOn.judgeRest := fun h =>
    (h.aside (State.handOn_aside _)).aside (State.judgeRest_aside _)
  cases h with
  | idle => exact .inl ⟨s, .refl s, .inl .refl⟩
  | taken => exact .inl ⟨s.begin, s.begin_aside, handed (State.served_evolves s _ _)⟩
  | claimed evolves => exact .inl ⟨s.begin, s.begin_aside, handed evolves⟩
  | event steady => exact .inl ⟨s.begin, s.begin_aside, steady.evolves.aside (State.judgeRest_aside _)⟩
  | reset => exact .inr ⟨[], 0, reset_fresh s, by decide, by decide⟩
  | start => exact .inr ⟨_, _, started_fresh _ s, planRom_length _, (planRom_window _).2⟩

/-- What a step can do to the table. -/
theorem step_table (e : step s = .next t) :
    (∃ u, Aside s u ∧ Evolves u t) ∨ ∃ plan window, Fresh plan window t ∧ plan.length ≤ 5 ∧ window ≤ 8192 := by
  rcases step_exec e with rfl | ⟨c, rest, e⟩
  · exact .inl ⟨t, .refl t, .inl .refl⟩
  · have taken : Aside s { s with pending := rest } := .of_eq rfl rfl rfl rfl (fun _ => rfl) rfl
    rcases (exec_stepped c e).table with ⟨u, aside, evolves⟩ | fresh
    · exact .inl ⟨u, taken.trans aside, evolves⟩
    · exact .inr fresh

/-- Settles O50: what evolves keeps the pairs and the records, and a fresh table has them. -/
theorem stepsKeepTheTable : Obligations.StepsKeepTheTable := by
  intro s t table leases e
  rw [tableLaw_iff] at table ⊢
  rw [leaseLaw_iff] at leases ⊢
  rcases step_table e with ⟨u, aside, evolves⟩ | ⟨plan, window, fresh, -, bound⟩
  · exact evolves.keeps (aside.paired table) (aside.sound leases)
  · exact ⟨fresh.paired, fresh.sound (by omega)⟩

end Sys2Proof.Machine

/-! ## Creation numbers, generations and owners -/

namespace Sys2Proof.Machine

open Sys2Proof.Statement

variable {s t : State}

/-! ### The renumbering (R10) -/

theorem countP_lt_of_mem {α : Type} {p q : α → Bool} {xs : List α} {x : α} (mem : x ∈ xs)
    (le : ∀ y, p y = true → q y = true) (hp : p x = false) (hq : q x = true) : xs.countP p < xs.countP q := by
  obtain ⟨before, after, rfl⟩ := List.append_of_mem mem
  have hb := List.countP_mono_left (l := before) fun y _ => le y
  have ha := List.countP_mono_left (l := after) fun y _ => le y
  simp only [List.countP_append, List.countP_cons, hp, hq, if_true, Bool.false_eq_true, if_false]
  omega

/-- A renumbering keeps the order of a lease and any later number (R10). -/
theorem State.renumber_lt {i : SlotNo} {l : Lease} {n : Nat} (at_ : s.leaseAt i = some l) (lt : l.creation < n) :
    s.renumber l.creation < s.renumber n := by
  unfold State.renumber
  refine Nat.succ_lt_succ (countP_lt_of_mem (x := (i, l)) (State.mem_leasesBySlot.2 at_) (fun y hy => ?_) ?_ ?_)
  · exact decide_eq_true ((of_decide_eq_true hy).trans lt)
  · exact decide_eq_false (lt_irrefl _)
  · exact decide_eq_true lt

/-- The new numbers are those of the places in the table's leases, from 1 (R10). -/
theorem State.renumber_range {i : SlotNo} {l : Lease} (at_ : s.leaseAt i = some l) :
    1 ≤ s.renumber l.creation ∧ s.renumber l.creation ≤ s.leasesBySlot.length := by
  refine ⟨Nat.succ_le_succ (Nat.zero_le _), Nat.succ_le_of_lt (List.countP_lt_length_iff.2 ?_)⟩
  exact ⟨(i, l), State.mem_leasesBySlot.2 at_, decide_eq_false (lt_irrefl _)⟩

theorem State.leasesBySlot_length (s : State) : s.leasesBySlot.length ≤ 64 := by
  refine (List.length_filterMap_le _ _).trans ?_
  rw [List.length_finRange]

theorem State.makeRoom_counter (s : State) :
    s.makeRoom.counter = if s.counter = Config.counterMax then s.leasesBySlot.length else s.counter := by
  unfold State.makeRoom
  split <;> rfl

/-- Settles O6: the new number of a lease is one more than the leases numbered below it. -/
theorem creationRenumbersAtTheLastNumber : Obligations.CreationRenumbersAtTheLastNumber := by
  refine ⟨fun s low => s.makeRoom_same low, fun s _ last => ⟨?_, fun j none => ?_, fun j m at_ => ?_, ?_⟩⟩
  · rw [s.makeRoom_frame, s.makeRoom_counter, if_pos last]
  · rw [State.makeRoom_slot, if_pos last]
    unfold SlotRec.renumbered
    unfold State.leaseAt at none
    cases e : (s.slot j).cond <;> simp_all
  · refine ⟨s.renumber m.creation, ?_, State.renumber_range at_⟩
    rw [State.makeRoom_slot, if_pos last, SlotRec.renumbered, State.leaseAt_iff.1 at_]
  · intro j k m m' n n' at_ at' lt e e'
    have renumbering : s.renumbering = s.renumber := if_pos last
    rw [State.makeRoom_leaseAt, at_, renumbering] at e
    rw [State.makeRoom_leaseAt, at', renumbering] at e'
    obtain rfl := Option.some.inj e
    obtain rfl := Option.some.inj e'
    exact State.renumber_lt at_ lt

/-! ### Creation numbers (R9) -/

/-- Creation numbers are all different, from 1 to the counter, which fits its 32 bits (R9, R11). -/
structure Numbered (s : State) : Prop where
  distinct : ∀ i j l m, s.leaseAt i = some l → s.leaseAt j = some m → l.creation = m.creation → i = j
  range : ∀ i l, s.leaseAt i = some l → 1 ≤ l.creation ∧ l.creation ≤ s.counter
  fits : s.counter ≤ Config.counterMax

theorem creationLaw_iff (s : State) : CreationLaw s ↔ Numbered s := by
  have members : ∀ n, n ∈ s.numbers ↔ ∃ i l, s.leaseAt i = some l ∧ l.creation = n := fun n => by
    simp [State.numbers, State.mem_leasesBySlot]
  have nodup : s.numbers.Nodup ↔
      ∀ i j l m, s.leaseAt i = some l → s.leaseAt j = some m → l.creation = m.creation → i = j := by
    unfold State.numbers
    rw [List.nodup_map_iff_inj_on s.leasesBySlot_nodup.of_map]
    constructor
    · intro h i j l m hl hm e
      exact congrArg Prod.fst (h (i, l) (State.mem_leasesBySlot.2 hl) (j, m) (State.mem_leasesBySlot.2 hm) e)
    · rintro h ⟨i, l⟩ hl ⟨j, m⟩ hm e
      rw [State.mem_leasesBySlot] at hl hm
      obtain rfl : i = j := h i j l m hl hm e
      rw [show l = m from Option.some.inj (hl.symm.trans hm)]
  constructor
  · rintro ⟨distinct, range, fits⟩
    exact ⟨nodup.1 distinct, fun i l h => range _ ((members _).2 ⟨i, l, h, rfl⟩), fits⟩
  · rintro ⟨distinct, range, fits⟩
    refine ⟨nodup.2 distinct, fun n hn => ?_, fits⟩
    obtain ⟨i, l, h, rfl⟩ := (members n).1 hn
    exact range i l h

/-- Every lease was there already, with its creation number, and was BOOT's if it is. -/
def LeasesBack (s t : State) : Prop :=
  ∀ i l', t.leaseAt i = some l' →
    ∃ l, s.leaseAt i = some l ∧ l'.creation = l.creation ∧ (l'.owner = .boot → l.owner = .boot)

theorem Numbered.back (law : Numbered s) (back : LeasesBack s t) (counter : t.counter = s.counter) : Numbered t where
  distinct i j l' m' hl hm e := by
    obtain ⟨l, hl, el, -⟩ := back i l' hl
    obtain ⟨m, hm, em, -⟩ := back j m' hm
    exact law.distinct i j l m hl hm (by rw [← el, ← em, e])
  range i l' h := by
    obtain ⟨l, hl, el, -⟩ := back i l' h
    rw [el, counter]
    exact law.range i l hl
  fits := counter ▸ law.fits

theorem Aside.back (h : Aside s t) : LeasesBack s t := fun i l e => ⟨l, h.leaseAt i ▸ e, rfl, id⟩

/-- A plain move leaves leases that were there, and the counter (R4, R9). -/
theorem Plain.back (h : Plain s t) : LeasesBack s t ∧ t.counter = s.counter := by
  cases h with
  | aside h => exact ⟨h.back, h.counter⟩
  | @amend i l l' at_ h =>
    refine ⟨fun j m e => ?_, rfl⟩
    rw [State.putLease_leaseAt] at e
    split at e
    · next hj =>
      obtain rfl := Option.some.inj e
      refine ⟨l, hj ▸ at_, h.creation, fun boot => ?_⟩
      rcases h.owner with same | ⟨c, client, -⟩
      · exact same ▸ boot
      · rw [client] at boot; cases boot
    · exact ⟨m, e, rfl, id⟩
  | retire i =>
    refine ⟨fun j l e => ?_, ?_⟩
    · rw [State.retire_leaseAt] at e
      split at e
      · cases e
      · exact ⟨l, e, rfl, id⟩
    · have frame := s.retire_frame i
      unfold OnlyTable at frame
      rw [frame]
  | quota | dropTerm | dropWindow => exact ⟨fun i l e => ⟨l, e, rfl, id⟩, rfl⟩
  | count =>
    refine ⟨fun i l' e => ?_, rfl⟩
    rw [SlotRec.ticked_leaseAt, Option.map_eq_some_iff] at e
    obtain ⟨l, hl, rfl⟩ := e
    exact ⟨l, hl, rfl, id⟩

theorem reserve_back {w : WatchId} {i : SlotNo} {r : Watch} :
    LeasesBack s ((s.setSlot i { gen := (s.slot i).gen, cond := .reserved w }).setWatch w (some r)) := by
  intro j l e
  change (s.setSlot i _).leaseAt j = some l at e
  rw [State.leaseAt_iff, State.setSlot_slot] at e
  split at e
  · cases e
  · exact ⟨l, State.leaseAt_iff.2 e, rfl, id⟩

theorem State.dropWatch_back {w : WatchId} {r : Watch} : LeasesBack s (s.dropWatch w r) := by
  intro j l e
  obtain ⟨l₀, h₀, rfl | rfl⟩ := State.dropWatch_leaseAt e
  · exact ⟨l, h₀, rfl, id⟩
  · exact ⟨l₀, h₀, rfl, id⟩

theorem State.dropWatch_counter (w : WatchId) (r : Watch) (s : State) : (s.dropWatch w r).counter = s.counter := by
  unfold State.dropWatch
  dsimp only
  split
  · rfl
  · split <;> rfl

/-- The table with room for one more creation keeps its numbers different, and its counter below the last value (R10). -/
theorem State.makeRoom_numbered (law : Numbered s) :
    Numbered s.makeRoom ∧ s.makeRoom.counter < Config.counterMax := by
  by_cases last : s.counter = Config.counterMax
  · have counter : s.makeRoom.counter = s.leasesBySlot.length := by rw [State.makeRoom_counter, if_pos last]
    have small : s.makeRoom.counter < Config.counterMax := by
      have := s.leasesBySlot_length
      rw [counter]; unfold Config.counterMax; omega
    have back : ∀ i l', s.makeRoom.leaseAt i = some l' →
        ∃ l, s.leaseAt i = some l ∧ l'.creation = s.renumber l.creation := fun i l' e => by
      rw [State.makeRoom_leaseAt, Option.map_eq_some_iff, State.renumbering, if_pos last] at e
      obtain ⟨l, hl, rfl⟩ := e
      exact ⟨l, hl, rfl⟩
    refine ⟨⟨fun i j l' m' hl hm e => ?_, fun i l' hl => ?_, small.le⟩, small⟩
    · obtain ⟨l, hl, el⟩ := back i l' hl
      obtain ⟨m, hm, em⟩ := back j m' hm
      rw [el, em] at e
      refine law.distinct i j l m hl hm ?_
      rcases lt_trichotomy l.creation m.creation with lt | eq | gt
      · exact absurd e (State.renumber_lt hl lt).ne
      · exact eq
      · exact absurd e (State.renumber_lt hm gt).ne'
    · obtain ⟨l, hl, el⟩ := back i l' hl
      rw [el, counter]
      exact State.renumber_range hl
  · rw [State.makeRoom_same s last]
    exact ⟨law, lt_of_le_of_ne law.fits last⟩

/-- A creation takes the number after the counter's (R9). -/
theorem State.create_numbered {i : SlotNo} {o : Owner} {a : Template} {b : Option WatchId} (law : Numbered s) :
    Numbered (s.create i o a b) := by
  obtain ⟨law, small⟩ := State.makeRoom_numbered law
  have leaseAt := State.create_leaseAt s i o a b
  have counter := s.create_counter i o a b
  have older : ∀ {j m}, s.makeRoom.leaseAt j = some m → m.creation ≠ s.makeRoom.counter + 1 := fun h e => by
    have := (law.range _ _ h).2
    omega
  refine ⟨fun j k l m hl hm e => ?_, fun j l hl => ?_, ?_⟩
  · rw [leaseAt] at hl hm
    split at hl <;> split at hm
    · next hj hk => rw [hj, hk]
    · obtain rfl := Option.some.inj hl
      exact absurd e.symm (older hm)
    · obtain rfl := Option.some.inj hm
      exact absurd e (older hl)
    · exact law.distinct j k l m hl hm e
  · rw [leaseAt] at hl
    rw [counter]
    split at hl
    · obtain rfl := Option.some.inj hl
      exact ⟨Nat.succ_le_succ (Nat.zero_le _), le_refl _⟩
    · exact ⟨(law.range j l hl).1, (law.range j l hl).2.trans (Nat.le_succ _)⟩
  · rw [counter]; exact small

theorem First.numbered (h : First s t) (law : Numbered s) : Numbered t := by
  cases h with
  | take => exact State.create_numbered law
  | fire => exact (State.create_numbered law).back (fun i l e => ⟨l, e, rfl, id⟩) rfl
  | reserve => exact law.back reserve_back rfl
  | drop => exact law.back State.dropWatch_back (State.dropWatch_counter ..)

theorem Plains.numbered (h : Plains s t) (law : Numbered s) : Numbered t := by
  induction h with
  | refl => exact law
  | tail _ move ih => exact ih.back move.back.1 move.back.2

theorem Aside.numbered (h : Aside s t) (law : Numbered s) : Numbered t := law.back h.back h.counter

theorem Evolves.numbered (h : Evolves s t) (law : Numbered s) : Numbered t := by
  rcases h with h | ⟨u, first, aside⟩
  · exact h.numbered law
  · exact aside.numbered (first.numbered law)

theorem Fresh.numbered {plan : List (Dom × Level)} {window : Nat} (h : Fresh plan window s)
    (short : plan.length ≤ 5) : Numbered s := by
  have place : ∀ {i l}, s.leaseAt i = some l → l.creation = i.1 + 1 ∧ i.1 < plan.length := fun e => by
    obtain ⟨x, hx, rfl⟩ := h.lease_eq e
    exact ⟨rfl, (List.getElem?_eq_some_iff.1 hx).1⟩
  refine ⟨fun i j l m hl hm e => ?_, fun i l hl => ?_, ?_⟩
  · have := (place hl).1
    have := (place hm).1
    exact Fin.ext (by omega)
  · obtain ⟨creation, small⟩ := place hl
    rw [h.counter]
    omega
  · rw [h.counter]; unfold Config.counterMax; omega

/-- Settles O51: moves keep the numbers, and a creation takes the next after making room. -/
theorem stepsKeepCreationNumbers : Obligations.StepsKeepCreationNumbers := by
  intro s t numbers _ e
  rw [creationLaw_iff] at numbers ⊢
  rcases step_table e with ⟨u, aside, evolves⟩ | ⟨plan, window, fresh, short, -⟩
  · exact evolves.numbered (aside.numbered numbers)
  · exact fresh.numbered short

/-! ### Generations and BOOT's leases (R4, R8) -/

/-- A generation goes up by one exactly where a slot leaves the LEASE condition, and no lease comes into being or into
BOOT's ownership. -/
structure Retires (s t : State) : Prop where
  gen : ∀ i, (t.slot i).gen
    = if (s.leaseAt i).isSome = true ∧ t.leaseAt i = none then (s.slot i).gen + 1 else (s.slot i).gen
  back : LeasesBack s t

theorem LeasesBack.none (h : LeasesBack s t) {i : SlotNo} (e : s.leaseAt i = none) : t.leaseAt i = none := by
  cases e' : t.leaseAt i with
  | none => rfl
  | some l' =>
    obtain ⟨l, hl, -⟩ := h i l' e'
    rw [e] at hl; cases hl

/-- Where every lease stays, the generations stand. -/
theorem Retires.of_kept (back : LeasesBack s t) (gen : ∀ i, (t.slot i).gen = (s.slot i).gen)
    (kept : ∀ i, s.leaseAt i ≠ none → t.leaseAt i ≠ none) : Retires s t := by
  refine ⟨fun i => ?_, back⟩
  rw [if_neg, gen]
  rintro ⟨here, gone⟩
  exact kept i (Option.isSome_iff_ne_none.1 here) gone

theorem Retires.refl (s : State) : Retires s s := .of_kept (fun _ l e => ⟨l, e, rfl, id⟩) (fun _ => rfl) fun _ kept => kept

theorem Retires.trans {u : State} (h : Retires s t) (k : Retires t u) : Retires s u := by
  refine ⟨fun i => ?_, fun i l'' e => ?_⟩
  · rw [k.gen, h.gen]
    cases hs : s.leaseAt i with
    | none => simp [h.back.none hs]
    | some l =>
      cases ht : t.leaseAt i with
      | none => simp [k.back.none ht]
      | some m => simp
  · obtain ⟨l', hl', creation', boot'⟩ := k.back i l'' e
    obtain ⟨l, hl, creation, boot⟩ := h.back i l' hl'
    exact ⟨l, hl, creation'.trans creation, fun b => boot (boot' b)⟩

theorem Aside.retires (h : Aside s t) : Retires s t :=
  .of_kept h.back (fun i => by rw [h.slot]) fun _ kept => by rw [h.leaseAt]; exact kept

/-- A plain move moves generations by retirements alone. -/
theorem Plain.retires (h : Plain s t) : Retires s t := by
  have back := h.back.1
  cases h with
  | aside h => exact h.retires
  | amend at_ h =>
    refine .of_kept back (fun j => ?_) fun j kept => ?_
    · rw [State.putLease_slot]; split
      · next hj => rw [hj]
      · rfl
    · rw [State.putLease_leaseAt]; split
      · exact nofun
      · exact kept
  | retire i =>
    refine ⟨fun j => ?_, back⟩
    cases at_ : s.leaseAt i with
    | none => rw [State.retire_none s i at_]; exact (Retires.refl s).gen j
    | some l =>
      rw [State.retire_slot s i j at_, State.retire_leaseAt]
      by_cases hj : j = i
      · simp [hj, at_]
      · cases h : s.leaseAt j <;> simp [hj]
  | quota | dropTerm | dropWindow => exact .of_kept back (fun _ => rfl) fun _ => id
  | count =>
    refine .of_kept back (fun j => ?_) fun j kept => ?_
    · rw [State.countTick_slot]; unfold SlotRec.ticked; split <;> rfl
    · rw [SlotRec.ticked_leaseAt]; simpa using kept

theorem Plains.retires (h : Plains s t) : Retires s t := by
  induction h with
  | refl => exact .refl s
  | tail _ move ih => exact ih.trans move.retires

/-- What a whole step does to generations and to BOOT's leases (R4, R8). -/
structure Guarded (s t : State) : Prop where
  gen : ∀ i, (t.slot i).gen
    = if (s.leaseAt i).isSome = true ∧ t.leaseAt i = none then (s.slot i).gen + 1 else (s.slot i).gen
  boot : ∀ i l, t.leaseAt i = some l → l.owner = .boot → ∃ l', s.leaseAt i = some l' ∧ l'.owner = .boot

theorem Retires.guarded (h : Retires s t) : Guarded s t :=
  ⟨h.gen, fun i l e boot => by
    obtain ⟨l', hl', -, back⟩ := h.back i l e
    exact ⟨l', hl', back boot⟩⟩

theorem Guarded.aside {u : State} (h : Guarded s t) (k : Aside t u) : Guarded s u := by
  refine ⟨fun i => ?_, fun i l e => ?_⟩
  · rw [k.slot, k.leaseAt]; exact h.gen i
  · rw [k.leaseAt] at e; exact h.boot i l e

/-- A creation in a slot without a lease, for a client, moves no generation. -/
theorem State.create_guarded {i : SlotNo} {c : Client} {a : Template} {b : Option WatchId}
    (vacant : s.leaseAt i = none) : Guarded s (s.create i (.client c) a b) := by
  have others : ∀ j, j ≠ i → (s.create i (.client c) a b).leaseAt j
      = (s.leaseAt j).map (fun l => { l with creation := s.renumbering l.creation }) := fun j hj => by
    rw [State.create_leaseAt, if_neg hj, State.makeRoom_leaseAt]
  refine ⟨fun j => ?_, fun j l e boot => ?_⟩
  · rw [State.create_slot]
    by_cases hj : j = i
    · simp [hj, vacant]
    · rw [if_neg hj, State.makeRoom_gen, others j hj]
      cases s.leaseAt j <;> simp
  · by_cases hj : j = i
    · rw [State.create_leaseAt, if_pos hj] at e
      obtain rfl := Option.some.inj e
      cases boot
    · rw [others j hj, Option.map_eq_some_iff] at e
      obtain ⟨m, hm, rfl⟩ := e
      exact ⟨m, hm, boot⟩

theorem First.guarded (h : First s t) (law : Paired s) : Guarded s t := by
  have free_vacant : ∀ {i}, (s.slot i).cond = .free → s.leaseAt i = none := fun h => by
    unfold State.leaseAt; rw [h]
  have reserved_vacant : ∀ {i w}, (s.slot i).cond = .reserved w → s.leaseAt i = none := fun h => by
    unfold State.leaseAt; rw [h]
  cases h with
  | take free quota term => exact State.create_guarded (free_vacant free)
  | @fire w r held armed =>
    have created := State.create_guarded (c := r.owner) (a := r.template) (b := some w)
      (reserved_vacant (law.armed _ _ held armed))
    exact ⟨created.gen, created.boot⟩
  | @reserve w i r room free quota armed slot term =>
    refine (Retires.of_kept reserve_back (fun j => ?_) fun j kept => ?_).guarded
    · rw [State.setWatch_slot, State.setSlot_slot]; split
      · next hj => rw [hj]
      · rfl
    · have apart : j ≠ i := fun hj => kept (hj ▸ free_vacant free)
      change (s.setSlot i _).leaseAt j ≠ none
      unfold State.leaseAt
      rw [State.setSlot_slot_ne _ _ _ apart]
      exact kept
  | @drop w r held =>
    cases state : r.state with
    | armed =>
      have reserved := law.armed w r held state
      have drop : s.dropWatch w r
          = (s.setWatch w none).setSlot r.slot { gen := (s.slot r.slot).gen, cond := .free } := by
        simp [State.dropWatch, state]
      refine (Retires.of_kept State.dropWatch_back (fun j => ?_) fun j kept => ?_).guarded
      · rw [drop, State.setSlot_slot]; split
        · next hj => rw [hj]
        · rfl
      · have apart : j ≠ r.slot := fun hj => kept (hj ▸ reserved_vacant reserved)
        rw [drop]
        unfold State.leaseAt
        rw [State.setSlot_slot_ne _ _ _ apart]
        exact kept
    | spent =>
      obtain ⟨⟨l, at_, -⟩, -⟩ := law.spent w r held state
      have drop : s.dropWatch w r = (s.setWatch w none).putLease r.slot { l with binding := none } := by
        simp [State.dropWatch, state, at_]
      refine (Retires.of_kept State.dropWatch_back (fun j => ?_) fun j kept => ?_).guarded
      · rw [drop, State.putLease_slot]; split
        · next hj => rw [hj]; rfl
        · rfl
      · rw [drop, State.putLease_leaseAt]; split
        · exact nofun
        · exact kept

theorem Evolves.guarded (h : Evolves s t) (law : Paired s) : Guarded s t := by
  rcases h with h | ⟨u, first, aside⟩
  · exact h.retires.guarded
  · exact (first.guarded law).aside aside

theorem State.handOn_supervisor (s : State) : s.handOn.supervisor = s.supervisor := by rw [State.handOn_frame]
theorem State.judgeRest_supervisor (s : State) : s.judgeRest.supervisor = s.supervisor := by
  rw [State.judgeRest_frame]

/-- The supervisor role moves by SUPER.PASS and RESET_N alone (R151). -/
theorem Stepped.supervisor {c : Instr} (h : Stepped c s t) (pass : c ≠ .superPass) (reset : c ≠ .resetAssert)
    (start : ∀ a b, c ≠ .partStart a b) : t.supervisor = s.supervisor := by
  cases h with
  | idle => rfl
  | @taken p r command =>
    have kind : r.kind ≠ .superPass := fun h => pass (by rw [command, h]; rfl)
    rw [State.taken_frame]
    exact ruleOf_supervisor s.begin p r kind
  | claimed evolves supervisor => rw [State.judgeRest_supervisor, State.handOn_supervisor, supervisor]
  | event steady => rw [State.judgeRest_supervisor, steady.supervisor]; rfl
  | reset command => exact absurd command reset
  | start command => exact absurd command (start _ _)

theorem Stepped.guarded {c : Instr} (h : Stepped c s t) (law : Paired s) (reset : c ≠ .resetAssert)
    (start : ∀ a b, c ≠ .partStart a b) : Guarded s t := by
  have evolved : ∀ {u}, Evolves s.begin u → Guarded s u := fun h =>
    have guarded := h.guarded (s.begin_aside.paired law)
    ⟨guarded.gen, guarded.boot⟩
  cases h with
  | idle => exact (Retires.refl s).guarded
  | taken => exact ((evolved (State.served_evolves s _ _)).aside (State.handOn_aside _)).aside (State.judgeRest_aside _)
  | claimed evolves => exact ((evolved evolves).aside (State.handOn_aside _)).aside (State.judgeRest_aside _)
  | event steady => exact (evolved steady.evolves).aside (State.judgeRest_aside _)
  | reset command => exact absurd command reset
  | start command => exact absurd command (start _ _)

/-- Settles O52: retirements alone move generations, and a lease created is a client's. -/
theorem stepsGuardGenerationsRoleAndBoot : Obligations.StepsGuardGenerationsRoleAndBoot := by
  intro s t c table reset start e
  have stepped := exec_stepped c e
  have guarded := stepped.guarded ((tableLaw_iff s).1 table) reset start
  exact ⟨guarded.gen, fun pass => stepped.supervisor pass reset start, guarded.boot⟩

end Sys2Proof.Machine

/-! ## Charges, claims and demands -/

namespace Sys2Proof.Machine

open Sys2Proof.Statement

variable {s t : State}

/-! ### The charge (R12) -/

/-- A slot is charged to a client: it holds a lease the client owns, or it is reserved by a watch of the client. -/
theorem State.chargedTo_iff (s : State) (c : Client) (i : SlotNo) :
    s.chargedTo c i = true ↔
      (∃ l, s.leaseAt i = some l ∧ l.owner = .client c)
      ∨ ∃ w r, (s.slot i).cond = .reserved w ∧ s.watch w = some r ∧ r.owner = c := by
  unfold State.chargedTo
  simp only [State.leaseAt_iff]
  cases (s.slot i).cond with
  | free => simp
  | lease l => simp
  | reserved w => cases h : s.watch w <;> simp [h]

/-- Where every slot charged was charged, the charge does not rise. -/
theorem State.charge_mono {c : Client} (h : ∀ i, t.chargedTo c i = true → s.chargedTo c i = true) :
    t.charge c ≤ s.charge c := List.countP_mono_left fun i _ => h i

/-- Where every slot charged but one was charged, the charge rises by one at most. -/
theorem State.charge_succ {c : Client} (i : SlotNo)
    (h : ∀ j, j ≠ i → t.chargedTo c j = true → s.chargedTo c j = true) : t.charge c ≤ s.charge c + 1 := by
  change List.countP (t.chargedTo c) _ ≤ List.countP (s.chargedTo c) _ + 1
  obtain ⟨before, after, split⟩ := List.append_of_mem (List.mem_finRange i)
  have nodup : (before ++ i :: after).Nodup := split ▸ List.nodup_finRange 64
  obtain ⟨hb, ha⟩ : i ∉ before ∧ i ∉ after := by
    rw [List.nodup_middle, List.nodup_cons, List.mem_append] at nodup
    tauto
  have lb := List.countP_mono_left (l := before) (p := t.chargedTo c) (q := s.chargedTo c)
    fun j hj => h j fun e => hb (e ▸ hj)
  have la := List.countP_mono_left (l := after) (p := t.chargedTo c) (q := s.chargedTo c)
    fun j hj => h j fun e => ha (e ▸ hj)
  rw [split, List.countP_append, List.countP_append, List.countP_cons, List.countP_cons]
  split <;> split <;> omega

/-- No client's charge exceeds its quota (R13). -/
theorem QuotaLaw.of_mono (law : QuotaLaw s) (quota : ∀ c, (t.client c).quota = (s.client c).quota)
    (charged : ∀ c i, t.chargedTo c i = true → s.chargedTo c i = true) : QuotaLaw t := fun c => by
  obtain ⟨charge, range⟩ := law c
  rw [quota]
  exact ⟨(State.charge_mono (charged c)).trans charge, range⟩

/-- One slot more may be charged to a client below its quota. -/
theorem QuotaLaw.of_succ (law : QuotaLaw s) (quota : ∀ c, (t.client c).quota = (s.client c).quota) (p : Client)
    (i : SlotNo) (room : s.charge p < (s.client p).quota)
    (charged : ∀ c j, c ≠ p ∨ j ≠ i → t.chargedTo c j = true → s.chargedTo c j = true) : QuotaLaw t := fun c => by
  obtain ⟨charge, range⟩ := law c
  rw [quota]
  refine ⟨?_, range⟩
  by_cases hc : c = p
  · subst hc
    exact (State.charge_succ i fun j hj => charged c j (.inr hj)).trans room
  · exact (State.charge_mono fun j => charged c j (.inl hc)).trans charge

theorem Aside.chargedTo (h : Aside s t) (c : Client) (i : SlotNo) :
    t.chargedTo c i = true → s.chargedTo c i = true := by
  simp only [State.chargedTo_iff, h.leaseAt, h.slot]
  rintro (lease | ⟨w, r, reserved, held, owner⟩)
  · exact .inl lease
  · obtain ⟨r₀, held₀, alike⟩ := h.watch_back held
    exact .inr ⟨w, r₀, reserved, held₀, alike.owner ▸ owner⟩

theorem Aside.quotaLaw (h : Aside s t) (law : QuotaLaw s) : QuotaLaw t := law.of_mono h.quota h.chargedTo

theorem State.putLease_chargedTo {i j : SlotNo} {l l' : Lease} {c : Client} (at_ : s.leaseAt i = some l)
    (h : j ≠ i ∨ (l'.owner = .client c → l.owner = .client c)) :
    (s.putLease i l').chargedTo c j = true → s.chargedTo c j = true := by
  simp only [State.chargedTo_iff, State.putLease_leaseAt, State.putLease_slot]
  by_cases hj : j = i
  · subst hj
    simp only [if_true]
    rintro (⟨m, e, owner⟩ | ⟨w, r, reserved, -⟩)
    · obtain rfl := Option.some.inj e
      exact .inl ⟨l, at_, h.resolve_left (absurd rfl) owner⟩
    · cases reserved
  · simp only [if_neg hj]
    exact id

theorem Amends.quotaLaw {i : SlotNo} {l l' : Lease} (h : Amends s l l') (at_ : s.leaseAt i = some l)
    (law : QuotaLaw s) : QuotaLaw (s.putLease i l') := by
  rcases h.owner with same | ⟨p, owner, room, -⟩
  · exact law.of_mono (fun _ => rfl) fun c j => State.putLease_chargedTo at_ (.inr fun e => same ▸ e)
  · refine law.of_succ (fun _ => rfl) p i room fun c j other => State.putLease_chargedTo at_ ?_
    refine other.symm.imp_right fun hc e => ?_
    rw [owner] at e
    cases e
    exact absurd rfl hc

theorem State.retire_client (i : SlotNo) (s : State) (c : Client) : (s.retire i).client c = s.client c := by
  have frame := s.retire_frame i
  unfold OnlyTable at frame
  rw [frame]
  rfl

/-- A retired bound lease leaves its slot charged to the same client, whose watch it is (R12, R128). -/
theorem State.retire_chargedTo (law : Paired s) (i j : SlotNo) (c : Client) :
    (s.retire i).chargedTo c j = true → s.chargedTo c j = true := by
  cases at_ : s.leaseAt i with
  | none => rw [State.retire_none s i at_]; exact id
  | some l =>
    simp only [State.chargedTo_iff, State.retire_leaseAt, State.retire_slot s i j at_]
    rintro (⟨m, e, owner⟩ | ⟨w, r, reserved, held, owner⟩)
    · split at e
      · cases e
      · exact .inl ⟨m, e, owner⟩
    · obtain ⟨r₀, held₀, owner₀, -⟩ := State.retire_watch_back held
      split at reserved
      · next hj =>
        cases binding : l.binding with
        | none => rw [binding] at reserved; cases reserved
        | some v =>
          obtain ⟨x, hx, -, -, lowner⟩ := law.bound i l v at_ binding
          rw [binding] at reserved
          cases reserved
          rw [held₀, Option.some.injEq] at hx
          exact .inl ⟨l, hj ▸ at_, by rw [lowner, ← hx, ← owner₀, owner]⟩
      · exact .inr ⟨w, r₀, reserved, held₀, owner₀ ▸ owner⟩

theorem State.countTick_chargedTo (c : Client) (i : SlotNo) :
    s.countTick.chargedTo c i = true → s.chargedTo c i = true := by
  simp only [State.chargedTo_iff, SlotRec.ticked_leaseAt, State.countTick_slot]
  rintro (⟨m, e, owner⟩ | ⟨w, r, reserved, held, owner⟩)
  · obtain ⟨l, hl, rfl⟩ := Option.map_eq_some_iff.1 e
    exact .inl ⟨l, hl, owner⟩
  · unfold SlotRec.ticked at reserved
    cases h : (s.slot i).cond <;> simp only [h] at reserved
    · cases reserved
    · exact .inr ⟨w, r, reserved, held, owner⟩
    · cases reserved

theorem State.setQuota_quotaLaw {c : Client} {q : Nat} (charge : s.charge c ≤ q) (range : 1 ≤ q ∧ q ≤ 64)
    (law : QuotaLaw s) : QuotaLaw (s.setClient c { s.client c with quota := q }) := fun o => by
  have same : (s.setClient c { s.client c with quota := q }).charge o = s.charge o := rfl
  rw [same, State.setClient_client]
  split
  · next ho => exact ⟨ho ▸ charge, range⟩
  · exact law o

theorem Plain.quotaLaw (h : Plain s t) (paired : Paired s) (law : QuotaLaw s) : QuotaLaw t := by
  cases h with
  | aside h => exact h.quotaLaw law
  | amend at_ h => exact h.quotaLaw at_ law
  | retire i =>
    exact law.of_mono (fun c => congrArg ClientRec.quota (State.retire_client i s c)) fun c j =>
      State.retire_chargedTo paired i j c
  | quota charge range => exact State.setQuota_quotaLaw charge range law
  | dropTerm | dropWindow => exact law
  | count => exact law.of_mono (fun _ => rfl) State.countTick_chargedTo

theorem Plains.quotaLaw (h : Plains s t) (paired : Paired s) (sound : Sound s) (law : QuotaLaw s) : QuotaLaw t := by
  induction h with
  | refl => exact law
  | tail before move ih => exact move.quotaLaw (Plains.keeps before paired sound).1 ih

theorem State.create_quota (i : SlotNo) (o : Owner) (a : Template) (b : Option WatchId) (s : State) (c : Client) :
    ((s.create i o a b).client c).quota = (s.client c).quota := by
  rw [State.create_frame]; rfl

/-- A creation charges its own slot alone anew. -/
theorem State.create_chargedTo {i j : SlotNo} {p c : Client} {a : Template} {b : Option WatchId}
    (other : c ≠ p ∨ j ≠ i) :
    (s.create i (.client p) a b).chargedTo c j = true → s.chargedTo c j = true := by
  simp only [State.chargedTo_iff, State.create_leaseAt, State.create_slot, State.create_watch]
  by_cases hj : j = i
  · simp only [if_pos hj]
    rintro (⟨m, e, owner⟩ | ⟨w, r, reserved, -⟩)
    · obtain rfl := Option.some.inj e
      cases owner
      exact absurd rfl (other.resolve_right (absurd hj))
    · cases reserved
  · simp only [if_neg hj, State.makeRoom_leaseAt, State.makeRoom_reserved]
    rintro (⟨m, e, owner⟩ | ⟨w, r, reserved, held, owner⟩)
    · obtain ⟨l, hl, rfl⟩ := Option.map_eq_some_iff.1 e
      exact .inl ⟨l, hl, owner⟩
    · exact .inr ⟨w, r, reserved, held, owner⟩

/-- A watch replaced by one of its owner moves no charge. -/
theorem State.setWatch_chargedTo {w : WatchId} {r x : Watch} (held : s.watch w = some r) (owner : x.owner = r.owner)
    (c : Client) (i : SlotNo) : (s.setWatch w (some x)).chargedTo c i = true → s.chargedTo c i = true := by
  simp only [State.chargedTo_iff]
  rintro (lease | ⟨v, y, reserved, heldy, ownery⟩)
  · exact .inl lease
  · rw [State.setWatch_watch] at heldy
    split at heldy
    · next hv =>
      obtain rfl := Option.some.inj heldy
      exact .inr ⟨w, r, hv ▸ reserved, held, owner ▸ ownery⟩
    · exact .inr ⟨v, y, reserved, heldy, ownery⟩

/-- A firing leaves the slot of the watch charged to its owner (R12, R127). -/
theorem State.fire_chargedTo {w : WatchId} {r : Watch} (held : s.watch w = some r) (armed : r.state = .armed)
    (paired : Paired s) (c : Client) (i : SlotNo) :
    (s.create r.slot (.client r.owner) r.template (some w)).chargedTo c i = true → s.chargedTo c i = true := by
  by_cases other : c ≠ r.owner ∨ i ≠ r.slot
  · exact State.create_chargedTo other
  · obtain ⟨rfl, rfl⟩ : c = r.owner ∧ i = r.slot := by tauto
    exact fun _ => (s.chargedTo_iff _ _).2 (.inr ⟨w, r, paired.armed w r held armed, held, rfl⟩)

theorem reserve_chargedTo {w : WatchId} {i j : SlotNo} {r : Watch} {c : Client} (room : s.watch w = none)
    (paired : Paired s) (other : c ≠ r.owner ∨ j ≠ i) :
    ((s.setSlot i { gen := (s.slot i).gen, cond := .reserved w }).setWatch w (some r)).chargedTo c j = true →
      s.chargedTo c j = true := by
  simp only [State.chargedTo_iff]
  rintro (⟨m, e, owner⟩ | ⟨v, x, reserved, held, owner⟩)
  · change (s.setSlot i _).leaseAt j = some m at e
    rw [State.leaseAt_iff, State.setSlot_slot] at e
    split at e
    · cases e
    · exact .inl ⟨m, State.leaseAt_iff.2 e, owner⟩
  · change ((s.setSlot i _).slot j).cond = .reserved v at reserved
    rw [State.setSlot_slot] at reserved
    split at reserved
    · next hj =>
      cases reserved
      rw [State.setWatch_watch, if_pos rfl] at held
      cases held
      exact absurd owner.symm (other.resolve_right (absurd hj))
    · obtain ⟨y, heldy, -⟩ := paired.reserved j v reserved
      have hv : v ≠ w := fun e => by rw [e, room] at heldy; cases heldy
      rw [State.setWatch_watch, if_neg hv] at held
      exact .inr ⟨v, x, reserved, held, owner⟩

theorem State.dropWatch_reserved {w v : WatchId} {r : Watch} {j : SlotNo}
    (e : ((s.dropWatch w r).slot j).cond = .reserved v) : (s.slot j).cond = .reserved v := by
  unfold State.dropWatch at e
  dsimp only at e
  split at e
  · rw [State.setSlot_slot] at e
    split at e
    · cases e
    · exact e
  · split at e
    · rw [State.putLease_slot] at e
      split at e
      · cases e
      · exact e
    · exact e

/-- A dropped watch charges nothing anew (R129). -/
theorem State.dropWatch_chargedTo {w : WatchId} {r : Watch} {c : Client} {j : SlotNo} :
    (s.dropWatch w r).chargedTo c j = true → s.chargedTo c j = true := by
  simp only [State.chargedTo_iff]
  rintro (⟨m, e, owner⟩ | ⟨v, x, reserved, held, owner⟩)
  · obtain ⟨l, hl, rfl | rfl⟩ := State.dropWatch_leaseAt e
    · exact .inl ⟨m, hl, owner⟩
    · exact .inl ⟨l, hl, owner⟩
  · rw [State.dropWatch_watch] at held
    split at held
    · cases held
    · exact .inr ⟨v, x, State.dropWatch_reserved reserved, held, owner⟩

theorem State.dropWatch_client {w : WatchId} {r : Watch} (s : State) (c : Client) :
    (s.dropWatch w r).client c = s.client c := by
  unfold State.dropWatch
  dsimp only
  split
  · rfl
  · split <;> rfl

theorem First.quotaLaw (h : First s t) (paired : Paired s) (law : QuotaLaw s) : QuotaLaw t := by
  cases h with
  | take free quota term =>
    exact law.of_succ (State.create_quota _ _ _ _ s) _ _ quota fun _ _ => State.create_chargedTo
  | @fire w r held armed =>
    refine law.of_mono (State.create_quota r.slot (.client r.owner) r.template (some w) s)
      fun c i charged => State.fire_chargedTo held armed paired c i ?_
    exact State.setWatch_chargedTo (x := { r with state := .spent, mark := false }) ((s.create_watch ..).trans held) rfl
      c i charged
  | reserve room free quota armed slot term =>
    exact law.of_succ (fun _ => rfl) _ _ quota fun _ _ => reserve_chargedTo room paired
  | drop held =>
    exact law.of_mono (fun c => congrArg ClientRec.quota (s.dropWatch_client c)) fun _ _ => State.dropWatch_chargedTo

theorem Evolves.quotaLaw (h : Evolves s t) (paired : Paired s) (sound : Sound s) (law : QuotaLaw s) : QuotaLaw t := by
  rcases h with h | ⟨u, first, aside⟩
  · exact h.quotaLaw paired sound law
  · exact aside.quotaLaw (first.quotaLaw paired law)

/-- A fresh table charges nothing to any client. -/
theorem Fresh.quotaLaw {plan : List (Dom × Level)} {window : Nat} (h : Fresh plan window s) : QuotaLaw s := fun c => by
  have uncharged : s.charge c = 0 := by
    refine List.countP_eq_zero.2 fun i _ charged => ?_
    rcases (s.chargedTo_iff c i).1 charged with ⟨l, e, owner⟩ | ⟨w, r, reserved, -⟩
    · obtain ⟨x, -, rfl⟩ := h.lease_eq e
      cases owner
    · exact h.not_reserved i w reserved
  rw [uncharged, h.quota]
  decide

/-- Settles O53: what evolves charges at most one slot anew, to a client below its quota. -/
theorem stepsKeepTheQuota : Obligations.StepsKeepTheQuota := by
  intro s t table leases quota e
  rw [tableLaw_iff] at table
  rw [leaseLaw_iff] at leases
  rcases step_table e with ⟨u, aside, evolves⟩ | ⟨plan, window, fresh, -, -⟩
  · exact evolves.quotaLaw (aside.paired table) (aside.sound leases) (aside.quotaLaw quota)
  · exact fresh.quotaLaw

end Sys2Proof.Machine

/-! ## Claims and demands -/

namespace Sys2Proof.Machine

variable {s t : State}

/-! ### The marks of the leases (R21, R49, R60) -/

/-- At most one claim of a kind waits for a handle, and a mark is set only while its claim waits. -/
structure Claimed (s : State) : Prop where
  termOnce : s.termClaims.Nodup
  windowOnce : s.windowClaims.Nodup
  term : ∀ i l, s.leaseAt i = some l → l.expiryMark = true → s.handleAt i ∈ s.termClaims
  window : ∀ i l, s.leaseAt i = some l → l.windowMark = true → s.handleAt i ∈ s.windowClaims

theorem getD_map_iff {mark : Lease → Bool} {x : Option Lease} :
    (x.map mark).getD false = true ↔ ∃ l, x = some l ∧ mark l = true := by
  cases x <;> simp

theorem claimLaw_iff (s : State) : ClaimLaw s ↔ Claimed s := by
  simp only [ClaimLaw, getD_map_iff]
  constructor
  · rintro ⟨termOnce, windowOnce, term, window⟩
    exact ⟨termOnce, windowOnce, fun i l e mark => term i ⟨l, e, mark⟩, fun i l e mark => window i ⟨l, e, mark⟩⟩
  · rintro ⟨termOnce, windowOnce, term, window⟩
    exact ⟨termOnce, windowOnce, fun i ⟨l, e, mark⟩ => term i l e mark, fun i ⟨l, e, mark⟩ => window i l e mark⟩

/-- A lease with a mark was there before, under the same handle and with that mark. -/
def MarksBack (s t : State) : Prop :=
  ∀ i l', t.leaseAt i = some l' →
    (l'.expiryMark = false ∧ l'.windowMark = false)
    ∨ ∃ l, s.leaseAt i = some l ∧ (t.slot i).gen = (s.slot i).gen
        ∧ (l'.expiryMark = true → l.expiryMark = true) ∧ (l'.windowMark = true → l.windowMark = true)

theorem MarksBack.claimed (back : MarksBack s t) (termClaims : t.termClaims = s.termClaims)
    (windowClaims : t.windowClaims = s.windowClaims) (law : Claimed s) : Claimed t where
  termOnce := termClaims ▸ law.termOnce
  windowOnce := windowClaims ▸ law.windowOnce
  term i l' e mark := by
    rcases back i l' e with ⟨unmarked, -⟩ | ⟨l, hl, gen, expiry, -⟩
    · rw [unmarked] at mark; cases mark
    · rw [termClaims, State.handleAt, gen]
      exact law.term i l hl (expiry mark)
  window i l' e mark := by
    rcases back i l' e with ⟨-, unmarked⟩ | ⟨l, hl, gen, -, window⟩
    · rw [unmarked] at mark; cases mark
    · rw [windowClaims, State.handleAt, gen]
      exact law.window i l hl (window mark)

/-- Where every lease was there before with its marks and its handle, every mark was there. -/
theorem MarksBack.of_leases
    (h : ∀ i l', t.leaseAt i = some l' → ∃ l, s.leaseAt i = some l ∧ (t.slot i).gen = (s.slot i).gen
      ∧ (l'.expiryMark = true → l.expiryMark = true) ∧ (l'.windowMark = true → l.windowMark = true)) :
    MarksBack s t := fun i l' e => .inr (h i l' e)

theorem Aside.claimed (h : Aside s t) (law : Claimed s) : Claimed t :=
  (MarksBack.of_leases fun i l e => ⟨l, h.leaseAt i ▸ e, by rw [h.slot], id, id⟩).claimed h.termClaims h.windowClaims law

theorem Amends.marksBack {i : SlotNo} {l l' : Lease} (h : Amends s l l') (at_ : s.leaseAt i = some l) :
    MarksBack s (s.putLease i l') := .of_leases fun j m e => by
  rw [State.putLease_leaseAt] at e
  rw [State.putLease_slot]
  by_cases hj : j = i
  · rw [if_pos hj] at e ⊢
    obtain rfl := Option.some.inj e
    exact ⟨l, hj ▸ at_, hj ▸ rfl, h.expiryMark, h.windowMark⟩
  · rw [if_neg hj] at e ⊢
    exact ⟨m, e, rfl, id, id⟩

theorem State.retire_marksBack (s : State) (i : SlotNo) : MarksBack s (s.retire i) := .of_leases fun j m e => by
  rw [State.retire_leaseAt] at e
  split at e
  · cases e
  · next hj =>
    refine ⟨m, e, ?_, id, id⟩
    cases at_ : s.leaseAt i with
    | none => rw [State.retire_none s i at_]
    | some l => rw [State.retire_slot s i j at_, if_neg hj]

theorem State.handlesOf_nodup (s : State) (ends : Lease → Bool) : (s.handlesOf ends).Nodup :=
  ((List.nodup_finRange 64).filter _).map fun _ _ e => congrArg Handle.slot e

theorem State.countTick_handleAt (s : State) (i : SlotNo) : s.countTick.handleAt i = s.handleAt i := by
  unfold State.handleAt
  rw [State.countTick_slot]
  unfold SlotRec.ticked
  split <;> rfl

/-- A tick sets a mark only where it raises the claim (R49, R60). -/
theorem State.countTick_claimed (law : Claimed s) : Claimed s.countTick where
  termOnce := nodup_joinClaims (s.handlesOf_nodup _) law.termOnce
  windowOnce := nodup_joinClaims (s.handlesOf_nodup _) law.windowOnce
  term i l' e mark := by
    rw [SlotRec.ticked_leaseAt, Option.map_eq_some_iff] at e
    obtain ⟨l, hl, rfl⟩ := e
    rw [State.countTick_handleAt]
    refine mem_joinClaims.2 ?_
    rcases Bool.or_eq_true_iff.1 mark with marked | ends
    · exact .inl (law.term i l hl marked)
    · exact .inr ((s.mem_handlesOf).2 ⟨i, l, hl, ends, rfl⟩)
  window i l' e mark := by
    rw [SlotRec.ticked_leaseAt, Option.map_eq_some_iff] at e
    obtain ⟨l, hl, rfl⟩ := e
    rw [State.countTick_handleAt]
    refine mem_joinClaims.2 ?_
    rcases Bool.or_eq_true_iff.1 mark with marked | ends
    · exact .inl (law.window i l hl marked)
    · exact .inr ((s.mem_handlesOf).2 ⟨i, l, hl, ends, rfl⟩)

/-- A claim dropped leaves every other claim of its kind waiting. -/
theorem mem_erase_of_unmarked {mark : Lease → Bool} {i : SlotNo} {l : Lease} {h : Handle} {claims : List Handle}
    (unmarked : ∀ i l, s.leaseAt i = some l → s.handleAt i = h → mark l = false) (at_ : s.leaseAt i = some l)
    (marked : mark l = true) (waits : s.handleAt i ∈ claims) : s.handleAt i ∈ claims.erase h := by
  refine (List.mem_erase_of_ne fun handle => ?_).2 waits
  rw [unmarked i l at_ handle] at marked
  cases marked

theorem Plain.claimed (h : Plain s t) (law : Claimed s) : Claimed t := by
  cases h with
  | aside h => exact h.claimed law
  | amend at_ h => exact (h.marksBack at_).claimed rfl rfl law
  | retire i => exact (s.retire_marksBack i).claimed (s.retire_claims i).1 (s.retire_claims i).2 law
  | quota => exact ⟨law.termOnce, law.windowOnce, law.term, law.window⟩
  | dropTerm unmarked =>
    exact ⟨law.termOnce.erase _, law.windowOnce,
      fun i l e mark => mem_erase_of_unmarked (mark := Lease.expiryMark) unmarked e mark (law.term i l e mark),
      law.window⟩
  | dropWindow unmarked =>
    exact ⟨law.termOnce, law.windowOnce.erase _, law.term,
      fun i l e mark => mem_erase_of_unmarked (mark := Lease.windowMark) unmarked e mark (law.window i l e mark)⟩
  | count => exact State.countTick_claimed law

/-- A lease is created without marks. -/
theorem State.create_marksBack {i : SlotNo} {o : Owner} {a : Template} {b : Option WatchId} :
    MarksBack s (s.create i o a b) := by
  intro j m e
  rw [State.create_leaseAt] at e
  rw [State.create_slot]
  by_cases hj : j = i
  · rw [if_pos hj] at e
    obtain rfl := Option.some.inj e
    exact .inl ⟨rfl, rfl⟩
  · rw [if_neg hj, State.makeRoom_leaseAt, Option.map_eq_some_iff] at e
    rw [if_neg hj, State.makeRoom_gen]
    obtain ⟨l, hl, rfl⟩ := e
    exact .inr ⟨l, hl, rfl, id, id⟩

theorem State.create_claims (s : State) (i : SlotNo) (o : Owner) (a : Template) (b : Option WatchId) :
    (s.create i o a b).termClaims = s.termClaims ∧ (s.create i o a b).windowClaims = s.windowClaims := by
  rw [State.create_frame]
  exact ⟨rfl, rfl⟩

theorem State.dropWatch_gen (s : State) (w : WatchId) (r : Watch) (j : SlotNo) :
    ((s.dropWatch w r).slot j).gen = (s.slot j).gen := by
  unfold State.dropWatch
  dsimp only
  split
  · rw [State.setSlot_slot]; split
    · next hj => rw [hj]
    · rfl
  · split
    · rw [State.putLease_slot]; split
      · next hj => rw [hj]; rfl
      · rfl
    · rfl

theorem State.dropWatch_marksBack {w : WatchId} {r : Watch} : MarksBack s (s.dropWatch w r) := .of_leases fun j m e => by
  obtain ⟨l, hl, rfl | rfl⟩ := State.dropWatch_leaseAt e
  · exact ⟨m, hl, s.dropWatch_gen w r j, id, id⟩
  · exact ⟨l, hl, s.dropWatch_gen w r j, id, id⟩

theorem State.dropWatch_claims (s : State) (w : WatchId) (r : Watch) :
    (s.dropWatch w r).termClaims = s.termClaims ∧ (s.dropWatch w r).windowClaims = s.windowClaims := by
  unfold State.dropWatch
  dsimp only
  split
  · exact ⟨rfl, rfl⟩
  · split <;> exact ⟨rfl, rfl⟩

theorem reserve_marksBack {w : WatchId} {i : SlotNo} {r : Watch} :
    MarksBack s ((s.setSlot i { gen := (s.slot i).gen, cond := .reserved w }).setWatch w (some r)) :=
  .of_leases fun j m e => by
    change (s.setSlot i _).leaseAt j = some m at e
    rw [State.leaseAt_iff, State.setSlot_slot] at e
    rw [State.setWatch_slot, State.setSlot_slot]
    by_cases hj : j = i
    · rw [if_pos hj] at e; cases e
    · rw [if_neg hj] at e ⊢
      exact ⟨m, State.leaseAt_iff.2 e, rfl, id, id⟩

theorem First.claimed (h : First s t) (law : Claimed s) : Claimed t := by
  cases h with
  | take => exact State.create_marksBack.claimed (s.create_claims ..).1 (s.create_claims ..).2 law
  | @fire w r =>
    have created := State.create_marksBack.claimed (s.create_claims r.slot (.client r.owner) r.template (some w)).1
      (s.create_claims ..).2 law
    exact ⟨created.termOnce, created.windowOnce, created.term, created.window⟩
  | reserve => exact reserve_marksBack.claimed rfl rfl law
  | drop => exact State.dropWatch_marksBack.claimed (s.dropWatch_claims ..).1 (s.dropWatch_claims ..).2 law

theorem Evolves.claimed (h : Evolves s t) (law : Claimed s) : Claimed t := by
  rcases h with h | ⟨u, first, aside⟩
  · induction h with
    | refl => exact law
    | tail _ move ih => exact move.claimed ih
  · exact aside.claimed (first.claimed law)

theorem Fresh.claimed {plan : List (Dom × Level)} {window : Nat} (h : Fresh plan window s) : Claimed s where
  termOnce := by rw [h.termClaims]; exact .nil
  windowOnce := by rw [h.windowClaims]; exact .nil
  term i l e mark := by
    obtain ⟨x, -, rfl⟩ := h.lease_eq e
    cases mark
  window i l e mark := by
    obtain ⟨x, -, rfl⟩ := h.lease_eq e
    cases mark

/-! ### The lease demands of the controllers (R17, R18) -/

/-- A hand-over leaves every controller the lease demand of the table. -/
theorem State.handOn_demandLaw (s : State) : DemandLaw s.handOn.judgeRest := fun d => by
  rw [State.tableDemand_congr (State.judgeRest_aside _).slots, State.handOn_tableDemand, State.judgeRest_frame]
  exact s.handOn_leaseDemand d

theorem State.judgeRest_demandLaw (law : DemandLaw s) : DemandLaw s.judgeRest := fun d => by
  rw [State.tableDemand_congr (State.judgeRest_aside _).slots, State.judgeRest_frame]
  exact law d

theorem Steady.demandLaw (h : Steady s t) (law : DemandLaw s) : DemandLaw t := fun d => by
  rw [h.leaseDemand, h.asks.tableDemand]
  exact law d

theorem Fresh.tableDemand_nil {window : Nat} (h : Fresh [] window s) (d : Dom) : s.tableDemand d = none := by
  rw [State.tableDemand_eq]
  simp [h.leaseAt]

theorem State.planLeases_ctrl (ds : List Dom) (e : Dom) (s : State) :
    (ds.foldl (fun t d => t.modCtrl d (fun r => { r with leaseDemand := t.tableDemand d })) s).ctrl e
      = if e ∈ ds then { s.ctrl e with leaseDemand := s.tableDemand e } else s.ctrl e := by
  induction ds generalizing s with
  | nil => rfl
  | cons d ds ih =>
    have table : (s.modCtrl d (fun r => { r with leaseDemand := s.tableDemand d })).tableDemand e = s.tableDemand e :=
      State.tableDemand_congr rfl e
    rw [List.foldl_cons, ih, table, State.modCtrl_ctrl]
    by_cases he : e = d
    · subst he; simp
    · simp [he]

theorem State.recount_leaseDemand (s : State) (d e : Dom) :
    ((s.recount d).ctrl e).leaseDemand = (s.ctrl e).leaseDemand := s.recounts_leaseDemand [d] e

/-- The demands of a plan are those of the table (R164). -/
theorem State.planDemand_leaseDemand (s : State) (d : Dom) : (s.planDemand.ctrl d).leaseDemand = s.tableDemand d := by
  have keeps := foldl_keeps (fun s t : State => ∀ e, (t.ctrl e).leaseDemand = (s.ctrl e).leaseDemand) (fun _ _ => rfl)
    (fun h k e => (k e).trans (h e))
    (fun t d => (t.modCtrl d (fun r => { r with derivedDemand := t.derivedFrom d })).recount d)
    (fun t d e => by
      rw [State.recount_leaseDemand, State.modCtrl_ctrl]
      split
      · next he => rw [he]
      · rfl)
  unfold State.planDemand
  dsimp only
  rw [keeps, State.planLeases_ctrl, if_pos (List.mem_finRange d)]

theorem State.start_demandLaw (plan : Fin 4) (s : State) : DemandLaw (State.start plan s) := fun d => by
  rw [State.start_eq]
  generalize ((s.planted plan).openWindow (Config.planRom plan).2).firstSample = u
  have raised := u.planDemand.raisePlan_passed
  have slots : u.planDemand.slots = u.slots := by rw [State.planDemand_frame]
  rw [raised.leaseDemand, State.tableDemand_congr raised.aside.slots, State.tableDemand_congr slots]
  exact u.planDemand_leaseDemand d

theorem State.blank_demandLaw (s : State) : DemandLaw s.blank := fun d => by
  rw [(State.blank_fresh s 0).tableDemand_nil]
  simp [State.blank, State.reset, State.ctrl, Ctrl.initial]

theorem Stepped.demandLaw {c : Instr} (h : Stepped c s t) (law : DemandLaw s) : DemandLaw t := by
  cases h with
  | idle => exact law
  | taken => exact State.handOn_demandLaw _
  | claimed => exact State.handOn_demandLaw _
  | event steady => exact State.judgeRest_demandLaw (steady.demandLaw law)
  | reset => exact State.judgeRest_demandLaw (State.blank_demandLaw _)
  | start => exact State.judgeRest_demandLaw (State.start_demandLaw _ _)

/-- Settles O54: moves set no mark but with its claim, and every take hands its demands on. -/
theorem stepsKeepClaimsAndDemand : Obligations.StepsKeepClaimsAndDemand := by
  intro s t claims demand e
  rw [claimLaw_iff] at claims ⊢
  constructor
  · rcases step_table e with ⟨u, aside, evolves⟩ | ⟨plan, window, fresh, -, -⟩
    · exact evolves.claimed (aside.claimed claims)
    · exact fresh.claimed
  · rcases step_exec e with rfl | ⟨c, rest, e⟩
    · exact demand
    · exact (exec_stepped c e).demandLaw demand

end Sys2Proof.Machine

/-! ## Derived values -/

namespace Sys2Proof.Machine

open Sys2Proof.Statement

variable {s t : State}

/-! ### Levels on their scale -/

theorem reachRank_reachMax (a b : Reach) : reachRank (reachMax a b) = max (reachRank a) (reachRank b) := by
  unfold reachMax
  split <;> omega

theorem reachMax_or (a b : Reach) : reachMax a b = a ∨ reachMax a b = b := by
  unfold reachMax
  split
  · exact .inr rfl
  · exact .inl rfl

/-- The greatest of the levels of those members of a list that count. -/
def greatest {α : Type} (counts : α → Prop) [DecidablePred counts] (level : α → Level) (xs : List α) (start : Reach) :
    Reach :=
  xs.foldl (fun m x => if counts x then reachMax m (some (level x)) else m) start

section Greatest

variable {α : Type} {counts : α → Prop} [DecidablePred counts] {level : α → Level}

theorem greatest_cons (x : α) (xs : List α) (start : Reach) :
    greatest counts level (x :: xs) start
      = greatest counts level xs (if counts x then reachMax start (some (level x)) else start) := rfl

theorem start_le_greatest (xs : List α) (start : Reach) :
    reachRank start ≤ reachRank (greatest counts level xs start) := by
  induction xs generalizing start with
  | nil => exact le_refl _
  | cons x xs ih =>
    rw [greatest_cons]
    refine le_trans ?_ (ih _)
    split
    · rw [reachRank_reachMax]; exact le_max_left ..
    · exact le_refl _

/-- No member that counts lies above the greatest. -/
theorem le_greatest {xs : List α} {x : α} (hx : x ∈ xs) (hc : counts x) (start : Reach) :
    reachRank (some (level x)) ≤ reachRank (greatest counts level xs start) := by
  induction xs generalizing start with
  | nil => cases hx
  | cons y ys ih =>
    rw [greatest_cons]
    rcases List.mem_cons.1 hx with rfl | hx
    · refine le_trans ?_ (start_le_greatest _ _)
      rw [if_pos hc, reachRank_reachMax]
      exact le_max_right ..
    · exact ih hx _

/-- The greatest is where it starts, or the level of a member that counts. -/
theorem greatest_attained (xs : List α) (start : Reach) :
    greatest counts level xs start = start
      ∨ ∃ x ∈ xs, counts x ∧ greatest counts level xs start = some (level x) := by
  induction xs generalizing start with
  | nil => exact .inl rfl
  | cons x xs ih =>
    rw [greatest_cons]
    rcases ih (if counts x then reachMax start (some (level x)) else start) with same | ⟨y, hy, hc, e⟩
    · rw [same]
      split
      · next hc =>
        rcases reachMax_or start (some (level x)) with h | h
        · exact .inl h
        · exact .inr ⟨x, by simp, hc, h⟩
      · exact .inl rfl
    · exact .inr ⟨y, by simp [hy], hc, e⟩

theorem greatest_some {xs : List α} {l : Level} (e : greatest counts level xs none = some l) :
    ∃ x ∈ xs, counts x ∧ level x = l := by
  rcases greatest_attained (counts := counts) (level := level) xs none with none | ⟨x, hx, hc, e'⟩
  · rw [none] at e; cases e
  · exact ⟨x, hx, hc, by rw [e] at e'; exact (Option.some.inj e').symm⟩

end Greatest

theorem State.derivedFrom_greatest (s : State) (p : Dom) :
    s.derivedFrom p
      = greatest (fun c => (s.ctrl c).setup.parent = some p ∧ (s.ctrl c).counts = true)
          (fun c => (s.ctrl c).setup.need) (List.finRange 8) none := rfl

theorem State.tableDemand_greatest (s : State) (d : Dom) :
    s.tableDemand d = greatest (fun x => x.2.domain = d) (fun x => x.2.level) s.leasesBySlot none := rfl

/-! ### Counts -/

/-- The count of the slots that pass a test counts them. -/
theorem counts_slots {p : SlotNo → Bool} {P : SlotNo → Prop} (h : ∀ i, p i = true ↔ P i) :
    Counts ((List.finRange 64).countP p) P :=
  ⟨(List.finRange 64).filter p, (List.nodup_finRange 64).filter p, List.countP_eq_length_filter.symm,
    fun i => by simp [h]⟩

theorem counted_iff (r : Ctrl) :
    r.counted = true ↔
      r.state ≠ .fault ∧ (isStarted r.state = true ∨ 2 ≤ reachRank r.leaseDemand ∨ 2 ≤ reachRank r.derivedDemand) := by
  unfold Ctrl.counted Ctrl.demand
  rw [reachRank_reachMax]
  simp only [Bool.and_eq_true, Bool.or_eq_true, decide_eq_true_eq]
  change _ ∧ (_ ∨ 2 ≤ _) ↔ _
  rw [le_max_iff]

theorem isStarted_iff (st : DomState) :
    isStarted st = true ↔
      (∃ run, st = .starting run) ∨ st = .slow ∨ st = .full ∨ st = .linger .slow ∨ st = .linger .full := by
  cases st with
  | linger l => cases l <;> simp [isStarted]
  | starting run => simp [isStarted]
  | _ => simp [isStarted]

theorem leaseStatus_faulted (st : DomState) (l : Level) : leaseStatus st l = .faulted ↔ st = .fault := by
  unfold leaseStatus
  by_cases fault : st = .fault
  · simp [fault]
  · by_cases low : reachRank (some l) ≤ reachRank (effLevel st) <;> simp [fault, low]

theorem leaseStatus_granted (st : DomState) (l : Level) :
    leaseStatus st l = .granted ↔ st ≠ .fault ∧ reachRank (some l) ≤ reachRank (effLevel st) := by
  unfold leaseStatus
  by_cases fault : st = .fault
  · simp [fault]
  · by_cases low : reachRank (some l) ≤ reachRank (effLevel st) <;> simp [fault, low]

theorem leaseStatus_pending (st : DomState) (l : Level) :
    leaseStatus st l = .pending ↔ st ≠ .fault ∧ reachRank (effLevel st) < reachRank (some l) := by
  unfold leaseStatus
  rw [← Nat.not_le]
  by_cases fault : st = .fault
  · simp [fault]
  · by_cases low : reachRank (some l) ≤ reachRank (effLevel st) <;> simp [fault, low]

theorem slow_le_iff (e : Reach) : reachRank (some .slow) ≤ reachRank e ↔ e = some .slow ∨ e = some .full := by
  rcases e with _ | (_ | _ | _) <;> decide

theorem presenceOf_absent (r : Ctrl) : presenceOf r = .absent ↔ r.cold = true := by
  unfold presenceOf
  cases r.cold
  · by_cases run : reachRank (some .slow) ≤ reachRank (effLevel r.state) <;> simp [run]
  · simp

theorem presenceOf_present (r : Ctrl) :
    presenceOf r = .present ↔ r.cold = false ∧ reachRank (some .slow) ≤ reachRank (effLevel r.state) := by
  unfold presenceOf
  cases r.cold
  · by_cases run : reachRank (some .slow) ≤ reachRank (effLevel r.state) <;> simp [run]
  · simp

theorem presenceOf_dormant (r : Ctrl) :
    presenceOf r = .dormant ↔ r.cold = false ∧ ¬ reachRank (some .slow) ≤ reachRank (effLevel r.state) := by
  unfold presenceOf
  cases r.cold
  · by_cases run : reachRank (some .slow) ≤ reachRank (effLevel r.state) <;> simp [run]
  · simp

/-- The lease count of a domain, slot by slot (R17). -/
theorem State.leaseCount_eq (s : State) (d : Dom) :
    s.leaseCount d = (List.finRange 64).countP (fun i => decide ((s.leaseAt i).map Lease.domain = some d)) := by
  unfold State.leaseCount State.leasesBySlot
  induction List.finRange 64 with
  | nil => rfl
  | cons i is ih => cases h : s.leaseAt i <;> simp [h, ih, List.countP_cons]

theorem State.leaseCount_counts (s : State) (d : Dom) :
    Counts (s.leaseCount d) (fun i => ∃ m, s.leaseAt i = some m ∧ m.domain = d) := by
  rw [State.leaseCount_eq]
  exact counts_slots fun i => by simp [Option.map_eq_some_iff]

theorem State.charge_counts (law : Paired s) (c : Client) :
    Counts (s.charge c) (fun i =>
      (∃ m, s.leaseAt i = some m ∧ m.owner = .client c)
      ∨ ∃ w x, (s.slot i).cond = .reserved w ∧ s.watch w = some x ∧ x.owner = c ∧ x.state = .armed ∧ x.slot = i) := by
  refine counts_slots fun i => (s.chargedTo_iff c i).trans (or_congr_right ⟨?_, ?_⟩)
  · rintro ⟨w, r, reserved, held, owner⟩
    obtain ⟨x, held', state, slot⟩ := law.reserved i w reserved
    obtain rfl := Option.some.inj (held.symm.trans held')
    exact ⟨w, r, reserved, held, owner, state, slot⟩
  · rintro ⟨w, x, reserved, held, owner, -, -⟩
    exact ⟨w, x, reserved, held, owner⟩

/-- Settles O26: each derived value is read off its definition; the demands are greatest levels and the counts count
slots. -/
theorem derivedValuesFollowTheTables : Obligations.DerivedValuesFollowTheTables := by
  refine ⟨fun st => ?_, fun st l => ?_, fun r => ?_, fun r => ?_, fun s p => ⟨fun c parent counts => ?_, fun l e => ?_⟩,
    fun s d => ⟨fun i m at_ domain => ?_, fun l e => ?_, s.leaseCount_counts d⟩,
    fun s c law => State.charge_counts ((tableLaw_iff s).1 law) c⟩
  · cases st <;> rfl
  · exact ⟨leaseStatus_faulted st l, leaseStatus_granted st l, leaseStatus_pending st l⟩
  · refine ⟨presenceOf_absent r, ?_, ?_⟩
    · rw [presenceOf_present, slow_le_iff]
    · rw [presenceOf_dormant, slow_le_iff, not_or]
  · rw [counted_iff, isStarted_iff]
    simp only [or_assoc]
  · exact le_greatest (counts := fun c => (s.ctrl c).setup.parent = some p ∧ (s.ctrl c).counts = true)
      (level := fun c => (s.ctrl c).setup.need) (List.mem_finRange c) ⟨parent, counts⟩ none
  · rw [State.derivedFrom_greatest] at e
    obtain ⟨c, -, ⟨parent, counts⟩, need⟩ := greatest_some e
    exact ⟨c, parent, counts, need⟩
  · exact le_greatest (counts := fun x : SlotNo × Lease => x.2.domain = d) (level := fun x => x.2.level)
      (State.mem_leasesBySlot.2 at_ : (i, m) ∈ s.leasesBySlot) domain none
  · rw [State.tableDemand_greatest] at e
    obtain ⟨⟨i, m⟩, hx, domain, level⟩ := greatest_some e
    exact ⟨i, m, State.mem_leasesBySlot.1 hx, domain, level⟩

end Sys2Proof.Machine

/-! ## How a demand powers a domain -/

namespace Sys2Proof.Machine

open Sys2Proof.Statement

variable {s t u : State} {d e : Dom} {r r' : Ctrl} {xs ys : List PinChange}

/-! ### Steps of one controller -/

/-- Only controllers and the record of changes differ. -/
def OnlyControl (s t : State) : Prop := t = { s with ctrls := t.ctrls, changes := t.changes }

theorem OnlyControl.refl (s : State) : OnlyControl s s := rfl
theorem OnlyControl.trans (h : OnlyControl s t) (k : OnlyControl t u) : OnlyControl s u := by
  unfold OnlyControl at *
  rw [k, h]

theorem OnlyControl.slots (h : OnlyControl s t) : t.slots = s.slots := by
  unfold OnlyControl at h; rw [h]
theorem OnlyControl.client (h : OnlyControl s t) (c : Client) : t.client c = s.client c := by
  unfold OnlyControl at h; rw [h]; rfl

/-- Domain `d` gets the record `r`, with the changes `xs` of its outputs, and nothing else moves. -/
structure Becomes (d : Dom) (r : Ctrl) (xs : List PinChange) (s t : State) : Prop where
  frame : OnlyControl s t
  ctrl : ∀ e, t.ctrl e = if e = d then r else s.ctrl e
  changes : t.changes = s.changes ++ xs

theorem Becomes.here (h : Becomes d r xs s t) : t.ctrl d = r := by rw [h.ctrl, if_pos rfl]

theorem Becomes.trans (h : Becomes d r xs s t) (k : Becomes d r' ys t u) : Becomes d r' (xs ++ ys) s u where
  frame := h.frame.trans k.frame
  ctrl e := by
    rw [k.ctrl, h.ctrl]
    by_cases he : e = d <;> simp [he]
  changes := by rw [k.changes, h.changes, List.append_assoc]

theorem State.modCtrl_becomes (f : Ctrl → Ctrl) (at_ : s.ctrl d = r) : Becomes d (f r) [] s (s.modCtrl d f) where
  frame := rfl
  ctrl e := by rw [State.modCtrl_ctrl, at_]
  changes := (List.append_nil _).symm

theorem State.enter_becomes (st : DomState) (n : Nat) (at_ : s.ctrl d = r) :
    Becomes d { r with state := st, timer := n } [] s (s.enter d st n) :=
  State.modCtrl_becomes (fun r => { r with state := st, timer := n }) at_

/-- An output driven to where it does not stand changes. -/
theorem State.drive_becomes {p : Pins} {x : PinChange} (at_ : s.ctrl d = r) (new : r.pins ≠ p) :
    Becomes d { r with pins := p } [x] s (s.drive d p x) := by
  have driven : s.drive d p x = (s.setCtrl d { s.ctrl d with pins := p }).emit x := by
    unfold State.drive; rw [if_neg (at_ ▸ new)]
  refine ⟨by rw [driven]; rfl, fun e => by rw [State.drive_ctrl, at_], by rw [driven]; rfl⟩

/-- A record replaced by itself. -/
theorem State.modCtrl_self {f : Ctrl → Ctrl} (h : f (s.ctrl d) = s.ctrl d) : s.modCtrl d f = s := by
  unfold State.modCtrl
  rw [h]
  unfold State.setCtrl State.ctrl
  rw [Vec.set_get]

/-- Where BOOT owns every lease, GRANTED reaches nobody (R90, R153). -/
theorem State.tellGranted_boot (boot : ∀ i l, s.leaseAt i = some l → l.owner = .boot) (d : Dom) (before : Reach) :
    s.tellGranted d before = s := by
  unfold State.tellGranted
  split
  · rfl
  · next now _ =>
    have owners : ∀ x ∈ s.leases, x.2.owner = .boot := fun x hx => boot x.1 x.2 (State.mem_leases.1 hx)
    generalize hys : List.filter _ s.leases = ys
    have owners : ∀ x ∈ ys, x.2.owner = .boot := fun x hx => owners x (List.mem_filter.1 (hys ▸ hx)).1
    clear hys
    induction ys with
    | nil => rfl
    | cons y ys ih =>
      have silent : State.notifyOwner y.2.owner .granted (.lease (s.handleAt y.1)) (.level d now) s = s := by
        rw [owners y (by simp)]; rfl
      rw [List.foldl_cons, silent]
      exact ih fun x hx => owners x (by simp [hx])

/-! ### From OFF to STARTING (R79 to R81) -/

/-- A domain powered, its ramp counting. -/
def State.ramped (d : Dom) (s : State) : State :=
  ((s.drivePen d true).enter d .powering ((s.drivePen d true).ctrl d).setup.ramp).setCold d true

theorem State.ramped_becomes (at_ : s.ctrl d = r) (off : r.pins = Pins.offRow) :
    Becomes d
      { r with
        state := .powering, timer := r.setup.ramp, cold := true
        pins := { pen := true, dclk := .stopped, iso := true, drst := true } }
      [.pen d true] s (s.ramped d) := by
  have driven : Becomes d { r with pins := { r.pins with pen := true } } [.pen d true] s (s.drivePen d true) := by
    unfold State.drivePen
    rw [at_]
    exact State.drive_becomes at_ (by rw [off]; decide)
  have entered := driven.trans (State.enter_becomes .powering r.setup.ramp driven.here)
  have cooled := entered.trans (State.modCtrl_becomes (fun r => { r with cold := true }) entered.here)
  have ramp : ((s.drivePen d true).ctrl d).setup.ramp = r.setup.ramp := by rw [driven.here]
  unfold State.ramped
  rw [ramp]
  rw [off] at cooled
  exact cooled

/-- Without PGOOD the ramp counts (R79). -/
theorem State.toPowering_ramps (at_ : s.ctrl d = r) (off : r.pins = Pins.offRow) (low : r.pgood = false) :
    s.toPowering d = s.ramped d := by
  have same : ((s.ramped d).ctrl d).pgood = false := by rw [(State.ramped_becomes at_ off).here]; exact low
  change (if ((s.ramped d).ctrl d).pgood = true then _ else s.ramped d) = _
  rw [same]
  rfl

/-- Where no GRANTED is due, a PGOOD already present takes the domain to HELD at once (R79, R80). -/
theorem State.toPowering_rises (at_ : s.ctrl d = r) (off : r.pins = Pins.offRow) (high : r.pgood = true)
    (boot : ∀ i l, s.leaseAt i = some l → l.owner = .boot) :
    s.toPowering d = (s.ramped d).toHeld d := by
  have ramped := State.ramped_becomes at_ off
  have same : ((s.ramped d).ctrl d).pgood = true := by rw [ramped.here]; exact high
  have entered := ramped.trans (State.enter_becomes .held 0 ramped.here)
  have silent : ((s.ramped d).enter d .held 0).tellGranted d none = (s.ramped d).enter d .held 0 :=
    State.tellGranted_boot (fun i l e => boot i l ((State.leaseAt_congr entered.frame.slots i) ▸ e)) d none
  change (if ((s.ramped d).ctrl d).pgood = true then (s.ramped d).endPowering d else s.ramped d) = _
  rw [if_pos same]
  unfold State.endPowering State.toHeld
  dsimp only
  rw [silent]
  split <;> rfl

/-- A domain in HELD with a demand of SLOW or FULL starts where its parent permits (R80, R81). -/
theorem State.heldCompare_run {run : Run} (demand : s.demand d = some run.level) :
    s.heldCompare d = if s.permits d then s.toStarting d run else s := by
  unfold State.heldCompare
  rw [demand]
  cases run <;> rfl

/-- A domain whose settle time is not 0 starts (R81). -/
theorem State.toStarting_becomes {run : Run} (at_ : s.ctrl d = r) (stopped : r.pins.dclk = .stopped)
    (settle : r.setup.settle ≠ 0) :
    Becomes d
      { r with
        state := .starting run, timer := r.setup.settle, pins := { r.pins with dclk := s.rate d run } }
      [.dclk d (s.rate d run)] s (s.toStarting d run) := by
  have driven : Becomes d { r with pins := { r.pins with dclk := s.rate d run } } [.dclk d (s.rate d run)] s
      (s.driveDclk d (s.rate d run)) := by
    unfold State.driveDclk
    rw [at_]
    refine State.drive_becomes at_ fun e => ?_
    have rate := congrArg Pins.dclk e
    rw [stopped] at rate
    cases run <;> cases rate
  have entered := driven.trans (State.enter_becomes (.starting run) r.setup.settle driven.here)
  have load : ((s.driveDclk d (s.rate d run)).ctrl d).setup.settle = r.setup.settle := by rw [driven.here]
  unfold State.toStarting
  dsimp only
  rw [load, entered.here, if_neg settle]
  exact entered

/-- Whether a parent permits is read off its own record. -/
theorem Becomes.permits (h : Becomes d r xs s t) (setup : r.setup = (s.ctrl d).setup)
    (other : (s.ctrl d).setup.parent ≠ some d) : t.permits d = s.permits d := by
  unfold State.permits
  rw [h.here, setup]
  cases parent : (s.ctrl d).setup.parent with
  | none => rfl
  | some p =>
    have apart : p ≠ d := fun e => other (e ▸ parent)
    dsimp only
    rw [h.ctrl, if_neg apart]

/-- A demand of SLOW or FULL powers a domain in OFF, and with PGOOD present takes it on to HELD and STARTING
(R79 to R81). -/
theorem State.toPowering_becomes {run : Run} (at_ : s.ctrl d = r) (off : r.pins = Pins.offRow) (cold : r.cold = true)
    (demand : r.demand = some run.level) (settle : r.setup.settle ≠ 0) (other : r.setup.parent ≠ some d)
    (boot : ∀ i l, s.leaseAt i = some l → l.owner = .boot) :
    let x := placed r (powerPlace r (s.permits d))
    Becomes d x (orderedChanges d Pins.offRow x.pins) s (s.toPowering d) := by
  have ramped := State.ramped_becomes at_ off
  cases pgood : r.pgood with
  | false =>
    rw [State.toPowering_ramps at_ off pgood]
    simpa [powerPlace, pgood, placed, rowPins, orderedChanges, Pins.offRow] using ramped
  | true =>
    have entered := ramped.trans (State.enter_becomes .held 0 ramped.here)
    have permits : ((s.ramped d).enter d .held 0).permits d = s.permits d :=
      entered.permits (by rw [at_]) (by rw [at_]; exact other)
    have wanted : ((s.ramped d).enter d .held 0).demand d = some run.level := by
      unfold State.demand; rw [entered.here]; exact demand
    rw [State.toPowering_rises at_ off pgood boot, State.toHeld, State.heldCompare_run wanted, permits]
    cases s.permits d with
    | false =>
      cases run <;> simpa [powerPlace, heldPlace, pgood, demand, Run.level, placed, rowPins, orderedChanges,
        Pins.offRow, cold] using entered
    | true =>
      have started := entered.trans (State.toStarting_becomes (run := run) entered.here rfl settle)
      cases run <;> simpa [powerPlace, heldPlace, startPlace, pgood, demand, settle, Run.level, placed, rowPins,
        orderedChanges, Pins.offRow, cold, State.rate, entered.here] using started

end Sys2Proof.Machine

/-! ## The plan's demands and what they power -/

namespace Sys2Proof.Machine

open Sys2Proof.Statement

variable {s t u : State} {d e : Dom} {plan : Fin 4} {pg up : Dom → Bool} {pgood called : Bool}

/-! ### What a plan demands (R163, R164) -/

/-- The lease demand that a plan puts on a domain (R17, R163). -/
def planReach (plan : Fin 4) (d : Dom) : Reach :=
  greatest (fun x : Dom × Level => x.1 = d) (fun x => x.2) (Config.planRom plan).1 none

/-- The derived demand under a plan: plan 3 demands D5, a child of D4 with need SLOW. -/
def planDerived (plan : Fin 4) (d : Dom) : Reach := if d = 4 ∧ plan = 3 then some .slow else none

theorem planRom_bySlot (plan : Fin 4) :
    (List.finRange 64).filterMap (fun i => (Config.planRom plan).1[i.1]?) = (Config.planRom plan).1 := by
  revert plan; decide

theorem Fresh.tableDemand {window : Nat} (h : Fresh (Config.planRom plan).1 window s) (d : Dom) :
    s.tableDemand d = planReach plan d := by
  have asks : ∀ i, (s.leaseAt i).map Lease.asks = (Config.planRom plan).1[i.1]? := fun i => by
    rw [h.leaseAt]
    cases (Config.planRom plan).1[i.1]? <;> rfl
  rw [State.tableDemand_eq, funext asks, planRom_bySlot]
  rfl

theorem planReach_not_hold (plan : Fin 4) (d : Dom) : planReach plan d ≠ some .hold := by
  revert plan d; decide

theorem planReach_run (led : planReach plan d ≠ none) : ∃ run : Run, planReach plan d = some run.level := by
  have high := planReach_not_hold plan d
  cases demand : planReach plan d with
  | none => exact absurd demand led
  | some l =>
    cases l with
    | hold => exact absurd demand high
    | slow => exact ⟨.slow, rfl⟩
    | full => exact ⟨.full, rfl⟩

/-- A derived demand of a plan is none above its lease demand. -/
theorem planReach_max (plan : Fin 4) (d : Dom) : reachMax (planReach plan d) (planDerived plan d) = planReach plan d := by
  revert plan d; decide

/-- The parent of a domain that a plan demands, if any, meets the need of the domain at SLOW at the least. -/
theorem planReach_need (plan : Fin 4) (d : Dom) (led : planReach plan d ≠ none) :
    (Config.defaultTree d).1 = none ∨ 1 < reachRank (some (Config.defaultTree d).2) := by
  revert plan d; decide

theorem defaultTree_irrefl (d : Dom) : (Config.defaultTree d).1 ≠ some d := by
  revert d; decide

/-- A child has a higher number than its parent in the default tree (R96). -/
theorem defaultTree_lt (d c : Dom) (child : (Config.defaultTree c).1 = some d) : d < c := by
  revert d c; decide

theorem planDerived_eq (plan : Fin 4) (d : Dom) :
    greatest (fun c => (Config.defaultTree c).1 = some d ∧ planReach plan c ≠ none) (fun c => (Config.defaultTree c).2)
      (List.finRange 8) none = planDerived plan d := by
  revert plan d; decide

/-- Where the children of a domain are counted as the plan demands them, their derived demand is the plan's (R97). -/
theorem State.derivedFrom_plan (setup : ∀ c, (s.ctrl c).setup = Config.defaultSetup c)
    (counts : ∀ c, (Config.defaultTree c).1 = some d → (s.ctrl c).counts = decide (planReach plan c ≠ none)) :
    s.derivedFrom d = planDerived plan d := by
  rw [← planDerived_eq plan d]
  have step : ∀ c : Dom, ((s.ctrl c).setup.parent = some d ∧ (s.ctrl c).counts = true)
      ↔ ((Config.defaultTree c).1 = some d ∧ planReach plan c ≠ none) := fun c => by
    rw [setup]
    refine and_congr_right fun child => ?_
    rw [counts c child, decide_eq_true_eq]
  exact congrArg (fun f => List.foldl f none (List.finRange 8))
    (funext fun m => funext fun c => if_congr (step c) (by rw [setup]; rfl) rfl)

/-! ### The records of the domains (R74, R164) -/

/-- The record of a domain in OFF handed the demands of a plan, and a parent change where `called` says so. -/
def fed (plan : Fin 4) (d : Dom) (pgood called : Bool) : Ctrl :=
  { Ctrl.initial d pgood with
    leaseDemand := planReach plan d, derivedDemand := planDerived plan d
    counts := decide (planReach plan d ≠ none), parentPending := called }

/-- The record of a domain under a plan, powered where `up` says so. -/
def risen (plan : Fin 4) (d : Dom) (pgood up called : Bool) : Ctrl :=
  placed (fed plan d pgood called)
    (if up then powerPlace (fed plan d pgood called) (decide ((Config.defaultTree d).1 = none)) else (.off, 0))

theorem risen_off : risen plan d pgood false called = fed plan d pgood called := rfl

theorem risen_demand (up : Bool) : (risen plan d pgood up called).demand = planReach plan d := planReach_max plan d

theorem powerPlace_fed {run : Run} (demand : planReach plan d = some run.level) (permitted : Bool) :
    powerPlace (fed plan d pgood called) permitted
      = if pgood then (if permitted then (.starting run, 4) else (.held, 0)) else (.powering, 16) := by
  have wanted : (fed plan d pgood called).demand = some run.level := (planReach_max plan d).trans demand
  cases pgood with
  | false => rfl
  | true =>
    change heldPlace _ permitted = _
    unfold heldPlace
    rw [wanted]
    cases run <;> rfl

/-- A domain demanded provides HOLD once it is powered with its PGOOD present, and nothing before (R75). -/
theorem risen_effLevel {up : Bool} (led : up = true → planReach plan d ≠ none) :
    effLevel (risen plan d pgood up called).state = if (up && pgood) = true then some .hold else none := by
  cases up with
  | false => rfl
  | true =>
    obtain ⟨run, demand⟩ := planReach_run (led rfl)
    unfold risen placed
    rw [if_pos rfl, powerPlace_fed demand]
    cases pgood
    · rfl
    · cases decide ((Config.defaultTree d).1 = none) <;> rfl

/-- No domain is warm before its settle time has run (R89). -/
theorem risen_cold {up : Bool} (led : up = true → planReach plan d ≠ none) :
    (risen plan d pgood up called).cold = true := by
  cases up with
  | false => rfl
  | true =>
    obtain ⟨run, demand⟩ := planReach_run (led rfl)
    unfold risen placed
    rw [if_pos rfl, powerPlace_fed demand]
    cases pgood
    · rfl
    · cases decide ((Config.defaultTree d).1 = none) <;> rfl

theorem risen_fault {up : Bool} (led : up = true → planReach plan d ≠ none) :
    (risen plan d pgood up called).state ≠ .fault := by
  cases up with
  | false => exact nofun
  | true =>
    obtain ⟨run, demand⟩ := planReach_run (led rfl)
    unfold risen placed
    rw [if_pos rfl, powerPlace_fed demand]
    cases pgood
    · exact nofun
    · cases decide ((Config.defaultTree d).1 = none) <;> exact nofun

/-- A domain demanded is counted toward its parent (R97). -/
theorem risen_counted (led : planReach plan d ≠ none) : (risen plan d pgood true called).counted = true := by
  obtain ⟨run, demand⟩ := planReach_run led
  unfold Ctrl.counted
  rw [risen_demand, demand]
  have high : reachRank (some .slow) ≤ reachRank (some run.level) := by cases run <;> decide
  simp [risen_fault fun _ => led, high]

/-! ### The demands handed on (R164 step 6) -/

/-- A domain of the plan counted as its demand says. -/
theorem fed_counted : (fed plan d pgood false).counted = decide (planReach plan d ≠ none) := by
  have demand : (fed plan d pgood false).demand = planReach plan d := planReach_max plan d
  unfold Ctrl.counted
  rw [demand]
  cases lease : planReach plan d with
  | none => rfl
  | some l =>
    obtain ⟨run, high⟩ := planReach_run (plan := plan) (d := d) (by rw [lease]; exact nofun)
    rw [← lease, high]
    cases run <;> rfl

/-- The record of a domain in OFF handed its lease demand alone. -/
def leased (plan : Fin 4) (d : Dom) (pgood : Bool) : Ctrl :=
  { Ctrl.initial d pgood with leaseDemand := planReach plan d }

/-- The derived demands of a plan, handed on to parents after their children. -/
theorem State.planDerives_ctrl (ds : List Dom) (after : ds.Pairwise (· > ·))
    (ctrl : ∀ e, s.ctrl e = if e ∈ ds then leased plan e (pg e) else fed plan e (pg e) false) (e : Dom) :
    (ds.foldl (fun t d => (t.modCtrl d (fun r => { r with derivedDemand := t.derivedFrom d })).recount d) s).ctrl e
      = fed plan e (pg e) false := by
  induction ds generalizing s with
  | nil => rw [List.foldl_nil, ctrl]; rfl
  | cons d ds ih =>
    obtain ⟨first, after⟩ := List.pairwise_cons.1 after
    have derived : s.derivedFrom d = planDerived plan d := by
      refine State.derivedFrom_plan (fun c => ?_) fun c child => ?_
      · rw [ctrl]; split <;> rfl
      · have later : c ∉ d :: ds := fun hc => by
          have lt := defaultTree_lt d c child
          rcases List.mem_cons.1 hc with rfl | hc
          · exact lt_irrefl _ lt
          · exact lt_asymm lt (first c hc)
        rw [ctrl, if_neg later]
        rfl
    refine ih after fun e => ?_
    have apart : d ∉ ds := fun hd => lt_irrefl _ (first d hd)
    rw [State.recount_ctrl, State.modCtrl_ctrl, State.modCtrl_ctrl, if_pos rfl, derived]
    by_cases he : e = d
    · subst he
      rw [if_pos rfl, if_neg apart, ctrl, if_pos (by simp)]
      change { fed plan e (pg e) false with counts := (fed plan e (pg e) false).counted } = _
      rw [fed_counted]
      rfl
    · rw [if_neg he, if_neg he, ctrl]
      simp [he]

/-- After the hand-over of a plan every domain has its demands and none is powered. -/
theorem State.planDemand_ctrl (initial : ∀ e, s.ctrl e = Ctrl.initial e (pg e))
    (table : ∀ e, s.tableDemand e = planReach plan e) (e : Dom) : s.planDemand.ctrl e = fed plan e (pg e) false := by
  refine State.planDerives_ctrl _ (by decide) (fun e => ?_) e
  rw [State.planLeases_ctrl, if_pos (List.mem_finRange e), if_pos (by simp), initial, table]
  rfl

/-! ### The domains powered (R78 to R81, R99) -/

/-- Whether a parent has risen to the need of a domain (R99). -/
def calledBy (pg up : Dom → Bool) (e : Dom) : Bool :=
  match (Config.defaultTree e).1 with
  | none => false
  | some p => up p && pg p && decide ((Config.defaultTree e).2 = .hold)

/-- One domain more powered. -/
def powered (up : Dom → Bool) (d : Dom) : Dom → Bool := fun e => up e || decide (e = d)

theorem calledBy_powered (low : up d = false) (e : Dom) :
    calledBy pg (powered up d) e
      = (calledBy pg up e
          || (decide ((Config.defaultTree e).1 = some d) && (pg d && decide ((Config.defaultTree e).2 = .hold)))) := by
  unfold calledBy powered
  cases (Config.defaultTree e).1 with
  | none => rfl
  | some p =>
    by_cases hp : p = d
    · subst hp; simp [low]
    · simp [hp]

/-- The domains stand under a plan, those powered that `up` names, and their outputs have changed in their order. -/
structure Posed (plan : Fin 4) (pg up : Dom → Bool) (u t : State) : Prop where
  frame : OnlyControl u t
  led : ∀ e, up e = true → planReach plan e ≠ none
  ctrl : ∀ e, t.ctrl e = risen plan e (pg e) (up e) (calledBy pg up e)
  changes : ∀ e, t.changes.filter (fun x => decide (outputOf x = some e)) = orderedChanges e Pins.offRow (t.ctrl e).pins

/-- BOOT owns every lease, and every client holds its part-start record. -/
structure Unclaimed (u : State) : Prop where
  boot : ∀ i l, u.leaseAt i = some l → l.owner = .boot
  client : ∀ c, u.client c = ClientRec.initial

/-- The changes of a domain's outputs are its own. -/
theorem outputOf_orderedChanges {p q : Pins} {x : PinChange} (hx : x ∈ orderedChanges d p q) : outputOf x = some d := by
  unfold orderedChanges at hx
  simp only [List.mem_append, List.mem_ite_nil_right, List.mem_ite_nil_left, List.mem_singleton] at hx
  rcases hx with ((((⟨-, rfl⟩ | ⟨-, rfl⟩) | ⟨-, rfl⟩) | ⟨-, rfl⟩) | ⟨-, rfl⟩) | ⟨-, rfl⟩ <;> rfl

theorem orderedChanges_filter (e : Dom) (p q : Pins) :
    (orderedChanges d p q).filter (fun x => decide (outputOf x = some e))
      = if e = d then orderedChanges d p q else [] := by
  split
  · next he =>
    exact List.filter_eq_self.2 fun x hx => decide_eq_true (he ▸ outputOf_orderedChanges hx)
  · next he =>
    refine List.filter_eq_nil_iff.2 fun x hx => ?_
    rw [outputOf_orderedChanges hx]
    simp [Ne.symm he]

/-- Whether domain `d` calls its child `e` (R99). -/
def State.calls (s : State) (d : Dom) (before : Reach) (e : Dom) : Bool :=
  decide ((s.ctrl e).setup.parent = some d)
    && crosses (s.ctrl e).setup.need before (effLevel (s.ctrl d).state)

theorem State.tellChild_ctrl (s : State) (d : Dom) (before : Reach) (c e : Dom) :
    (s.tellChild d before c).ctrl e
      = if e = c ∧ s.calls d before e = true then { s.ctrl e with parentPending := true } else s.ctrl e := by
  have told : s.tellChild d before c
      = if s.calls d before c = true then s.modCtrl c (fun r => { r with parentPending := true }) else s := by
    unfold State.tellChild State.calls
    simp only [Bool.and_eq_true, decide_eq_true_eq]
  rw [told]
  by_cases he : e = c
  · subst he
    cases calls : s.calls d before e <;> simp [State.modCtrl_ctrl]
  · cases calls : s.calls d before c <;> simp [State.modCtrl_ctrl, he]

theorem State.tellChild_calls (s : State) (d : Dom) (before : Reach) (c e : Dom) :
    (s.tellChild d before c).calls d before e = s.calls d before e := by
  have keeps : ∀ x, ((s.tellChild d before c).ctrl x).setup = (s.ctrl x).setup
      ∧ ((s.tellChild d before c).ctrl x).state = (s.ctrl x).state := fun x => by
    rw [State.tellChild_ctrl]; split <;> exact ⟨rfl, rfl⟩
  unfold State.calls
  rw [(keeps e).1, (keeps d).2]

theorem State.tellChildren_ctrl (s : State) (d : Dom) (before : Reach) (e : Dom) :
    (s.tellChildren d before).ctrl e
      = if s.calls d before e = true then { s.ctrl e with parentPending := true } else s.ctrl e := by
  have fold : ∀ (cs : List Dom) (s : State), (cs.foldl (State.tellChild d before) s).ctrl e
      = if e ∈ cs ∧ s.calls d before e = true then { s.ctrl e with parentPending := true } else s.ctrl e := by
    intro cs
    induction cs with
    | nil => intro s; simp
    | cons c cs ih =>
      intro s
      rw [List.foldl_cons, ih, State.tellChild_ctrl, State.tellChild_calls]
      cases calls : s.calls d before e
      · simp
      · by_cases he : e = c <;> by_cases hc : e ∈ cs <;> simp [he, hc]
  rw [State.tellChildren, fold]
  simp

theorem State.tellChildren_control (s : State) (d : Dom) (before : Reach) :
    OnlyControl s (s.tellChildren d before) ∧ (s.tellChildren d before).changes = s.changes := by
  refine foldl_keeps (fun s t => OnlyControl s t ∧ t.changes = s.changes) (fun s => ⟨.refl s, rfl⟩)
    (fun h k => ⟨h.1.trans k.1, k.2.trans h.2⟩) _ (fun t c => ?_) _ s
  unfold State.tellChild
  split <;> exact ⟨rfl, rfl⟩

/-- CRST_N of a client of a cold home stays asserted (R140). -/
theorem State.syncHome_same (cold : (s.ctrl d).cold = true) (client : ∀ c, s.client c = ClientRec.initial) :
    s.syncHome d = s := by
  unfold State.syncHome
  cases home : homeClient d with
  | none => rfl
  | some c =>
    have homeOf_c : homeOf c = d := by
      unfold homeClient at home
      split at home
      · obtain rfl := Option.some.inj home; rfl
      · cases home
    have untied : s.staysTied c = false := by unfold State.staysTied; rw [client]; rfl
    have same : s.setClient c { s.client c with tied := false } = s := by
      have record : { s.client c with tied := false } = s.client c := by rw [client]; rfl
      rw [record]
      unfold State.setClient State.client
      rw [Vec.set_get]
    dsimp only
    unfold State.syncCrst State.driveCrst
    dsimp only
    rw [untied, same, homeOf_c, cold, client]
    rfl

theorem crosses_none (need : Level) (b : Bool) :
    crosses need none (if b = true then some .hold else none) = (b && decide (need = .hold)) := by
  cases need <;> cases b <;> rfl

theorem Posed.permits (h : Posed plan pg up u t) (led : planReach plan d ≠ none) :
    t.permits d = decide ((Config.defaultTree d).1 = none) := by
  have setup : (t.ctrl d).setup = Config.defaultSetup d := by rw [h.ctrl]; rfl
  unfold State.permits
  rw [setup]
  change (match (Config.defaultTree d).1 with | none => true | some p => _) = _
  cases parent : (Config.defaultTree d).1 with
  | none => rfl
  | some p =>
    have need := (planReach_need plan d led).resolve_left (by rw [parent]; exact nofun)
    have low : reachRank (effLevel (t.ctrl p).state) ≤ 1 := by
      rw [h.ctrl, risen_effLevel (h.led p)]
      split <;> decide
    exact decide_eq_decide.2 (iff_of_false (fun le => absurd (le.trans low) (Nat.not_le.2 need)) nofun)

/-- A domain that a plan demands, once powered, calls the children it rises for (R99). -/
theorem Posed.told (h : Posed plan pg up u t) (low : up d = false) (led : planReach plan d ≠ none) {p : State}
    (power : Becomes d (risen plan d (pg d) true (calledBy pg up d))
      (orderedChanges d Pins.offRow (risen plan d (pg d) true (calledBy pg up d)).pins) t p) :
    Posed plan pg (powered up d) u (p.tellChildren d none) := by
  obtain ⟨frame, changes⟩ := p.tellChildren_control d none
  have others : ∀ e, p.ctrl e = risen plan e (pg e) (powered up d e) (calledBy pg up e) := fun e => by
    rw [power.ctrl, powered]
    by_cases he : e = d
    · subst he; simp
    · simp [he, h.ctrl]
  have calls : ∀ e, p.calls d none e
      = (decide ((Config.defaultTree e).1 = some d) && (pg d && decide ((Config.defaultTree e).2 = .hold))) := fun e => by
    unfold State.calls
    rw [power.here, risen_effLevel fun _ => led, Bool.true_and, crosses_none, others]
    rfl
  have ctrl : ∀ e, (p.tellChildren d none).ctrl e
      = risen plan e (pg e) (powered up d e) (calledBy pg (powered up d) e) := fun e => by
    rw [State.tellChildren_ctrl, calls, calledBy_powered low, others]
    split
    · next called => rw [called, Bool.or_true]; rfl
    · next uncalled => rw [Bool.eq_false_iff.2 uncalled, Bool.or_false]
  refine ⟨(h.frame.trans power.frame).trans frame, fun e => ?_, ctrl, fun e => ?_⟩
  · unfold powered
    by_cases he : e = d
    · exact fun _ => he ▸ led
    · simpa [he] using h.led e
  · have pins : ((p.tellChildren d none).ctrl e).pins = (p.ctrl e).pins := by
      rw [State.tellChildren_ctrl]; split <;> rfl
    rw [pins, changes, power.changes, List.filter_append, h.changes, orderedChanges_filter, power.ctrl]
    by_cases he : e = d
    · subst he
      rw [if_pos rfl, if_pos rfl, h.ctrl, low]
      rfl
    · rw [if_neg he, if_neg he, List.append_nil]

/-- What a powered domain hands its neighbours is the call to its children alone: its parent's demand stands. -/
theorem Posed.handed (h : Posed plan pg up u t) (unclaimed : Unclaimed u) (on : up d = true) :
    ((t.recount d).recomputeParent d).syncHome d = t := by
  have setup : ∀ c, (t.ctrl c).setup = Config.defaultSetup c := fun c => by rw [h.ctrl]; rfl
  have recounted : t.recount d = t := State.modCtrl_self <| by
    have counts : (t.ctrl d).counted = (t.ctrl d).counts := by
      rw [h.ctrl, on, risen_counted (h.led d on)]
      exact (decide_eq_true (h.led d on)).symm
    rw [counts]
  have recomputed : t.recomputeParent d = t := by
    unfold State.recomputeParent
    split
    · next p _ =>
      refine State.modCtrl_self ?_
      have derived : t.derivedFrom p = (t.ctrl p).derivedDemand := by
        rw [State.derivedFrom_plan setup fun c _ => by rw [h.ctrl]; rfl, h.ctrl]
        rfl
      rw [derived]
      simp [Ctrl.hand, Ctrl.demand]
    · rfl
  rw [recounted, recomputed]
  refine State.syncHome_same ?_ fun c => (h.frame.client c).trans (unclaimed.client c)
  rw [h.ctrl]
  exact risen_cold (h.led d)

/-- The event of a domain that a plan demands powers it, calls the children it rises for and no one else. -/
theorem Posed.event (h : Posed plan pg up u t) (unclaimed : Unclaimed u) (low : up d = false)
    (led : planReach plan d ≠ none) : Posed plan pg (powered up d) u (t.event d (State.toPowering d)) := by
  obtain ⟨run, demand⟩ := planReach_run led
  have at_ : t.ctrl d = fed plan d (pg d) (calledBy pg up d) := by rw [h.ctrl, low, risen_off]
  have boot : ∀ {v}, OnlyControl u v → ∀ i l, v.leaseAt i = some l → l.owner = .boot := fun frame i l e =>
    unclaimed.boot i l (State.leaseAt_congr frame.slots i ▸ e)
  have power := State.toPowering_becomes (run := run) at_ rfl rfl ((planReach_max plan d).trans demand)
    (show (4 : Nat) ≠ 0 by decide) (defaultTree_irrefl d) (boot h.frame)
  rw [h.permits led] at power
  change Becomes d (risen plan d (pg d) true (calledBy pg up d)) _ t (t.toPowering d) at power
  have before : effLevel (t.ctrl d).state = none := by rw [at_]; rfl
  unfold State.event
  dsimp only
  rw [before, State.tellGranted_boot (boot (h.frame.trans power.frame)), ite_self]
  have told := h.told low led power
  unfold State.handNeighbours
  rw [told.handed unclaimed (by simp [powered])]
  exact told

/-- The domains that a plan demands are powered one after another (R78, R164). -/
theorem Posed.raised (h : Posed plan pg up u t) (unclaimed : Unclaimed u) (ds : List Dom) (nodup : ds.Nodup)
    (low : ∀ d ∈ ds, up d = false) :
    Posed plan pg (fun e => up e || (decide (e ∈ ds) && decide (planReach plan e ≠ none))) u
      (ds.foldl (fun t d => if t.demand d = none then t else t.event d (State.toPowering d)) t) := by
  induction ds generalizing t up with
  | nil => simpa using h
  | cons d ds ih =>
    obtain ⟨apart, nodup⟩ := List.nodup_cons.1 nodup
    have demand : t.demand d = planReach plan d := by rw [State.demand, h.ctrl, risen_demand]
    rw [List.foldl_cons, demand]
    by_cases led : planReach plan d = none
    · rw [if_pos led]
      convert ih h nodup fun e he => low e (by simp [he]) using 2
      next e =>
        by_cases he : e = d
        · subst he; simp [led]
        · simp [he]
    · rw [if_neg led]
      convert ih (h.event unclaimed (low d (by simp)) led) nodup fun e he => ?_ using 2
      · next e =>
        by_cases he : e = d
        · subst he; simp [powered, led]
        · simp [powered, he]
      · have other : e ≠ d := fun h => apart (h ▸ he)
        simp [powered, other, low e (by simp [he])]

end Sys2Proof.Machine

/-! ## Part start -/

namespace Sys2Proof.Machine

open Sys2Proof.Statement

variable {s t u : State} {plan : Fin 4} {pg : Dom → Bool}

/-! ### The part as the plan's demands find it (R162 to R165) -/

/-- The part with its boot leases, its adoption window open and the wake lines sampled, before any demand moves. -/
def State.opened (plan : Fin 4) (s : State) : State :=
  ((s.planted plan).openWindow (Config.planRom plan).2).firstSample

/-- The part-start state, over the inputs and the levels that stand, with a given table (R162 to R165). -/
theorem State.opened_eq (plan : Fin 4) (s : State) :
    s.opened plan
      = { State.reset with
          slots := (s.planted plan).slots, counter := (s.planted plan).counter
          adoption := some (Config.planRom plan).2
          wake := { lines := s.wake.lines, present := s.wake.lines, previous := s.wake.lines, latches := 0 }
          watches := (s.opened plan).watches
          ctrls := Vec.ofFn (fun d => Ctrl.initial d (s.ctrl d).pgood)
          miso := s.miso, plan := plan, resetLow := false, changes := s.changes, pending := s.pending } := by
  have frame := s.planted_frame plan
  unfold State.opened State.firstSample State.openWindow State.judgeWatches
  dsimp only
  generalize s.planted plan = p at frame ⊢
  rw [frame]
  rfl

theorem State.opened_fresh (plan : Fin 4) (s : State) :
    Fresh (Config.planRom plan).1 (Config.planRom plan).2 (s.opened plan) :=
  (((s.planted plan).openWindow_aside _).trans (State.firstSample_aside _)).fresh (s.planted_fresh plan)

theorem State.opened_ctrl (plan : Fin 4) (s : State) (d : Dom) :
    (s.opened plan).ctrl d = Ctrl.initial d (s.ctrl d).pgood := by
  rw [State.opened_eq]; exact Vec.get_ofFn _ d

theorem State.opened_client (plan : Fin 4) (s : State) (c : Client) :
    (s.opened plan).client c = ClientRec.initial := by
  rw [State.opened_eq]; exact Vec.get_replicate _ c

/-- The plan's demands move controllers and the outputs of domains, and nothing else (R164 step 6). -/
theorem State.start_posed (plan : Fin 4) (s : State) (quiet : s.changes = []) :
    Posed plan (fun d => (s.ctrl d).pgood) (fun d => decide (planReach plan d ≠ none)) (s.opened plan)
      (State.start plan s) := by
  have fresh := s.opened_fresh plan
  have demanded : ∀ e, (s.opened plan).planDemand.ctrl e = fed plan e (s.ctrl e).pgood false :=
    State.planDemand_ctrl (s.opened_ctrl plan) fresh.tableDemand
  have frame : OnlyControl (s.opened plan) (s.opened plan).planDemand := by
    unfold OnlyControl; rw [State.planDemand_frame]
  have changes : (s.opened plan).planDemand.changes = [] := by
    rw [State.planDemand_frame, State.opened_eq]; exact quiet
  have uncalled : ∀ e, calledBy (fun d => (s.ctrl d).pgood) (fun _ => false) e = false := fun e => by
    unfold calledBy; cases (Config.defaultTree e).1 <;> rfl
  have posed : Posed plan (fun d => (s.ctrl d).pgood) (fun _ => false) (s.opened plan) (s.opened plan).planDemand :=
    ⟨frame, nofun, fun e => by rw [demanded, uncalled]; rfl, fun e => by rw [changes, demanded]; rfl⟩
  have unclaimed : Unclaimed (s.opened plan) := by
    refine ⟨fun i l e => ?_, s.opened_client plan⟩
    obtain ⟨x, -, rfl⟩ := fresh.lease_eq e
    rfl
  have raised := posed.raised unclaimed (List.finRange 8) (List.nodup_finRange 8) fun _ _ => rfl
  have all : (fun e => false || (decide (e ∈ List.finRange 8) && decide (planReach plan e ≠ none)))
      = fun e => decide (planReach plan e ≠ none) := by funext e; simp
  rw [all] at raised
  exact raised

/-- A part start moves the table, the watches, the controllers and the record of changes, and no other block (R162 to
R165). -/
theorem State.start_frame (plan : Fin 4) (s : State) (quiet : s.changes = []) :
    State.start plan s
      = { State.reset with
          slots := (State.start plan s).slots, counter := (State.start plan s).counter
          adoption := some (Config.planRom plan).2
          wake := { lines := s.wake.lines, present := s.wake.lines, previous := s.wake.lines, latches := 0 }
          watches := (State.start plan s).watches, ctrls := (State.start plan s).ctrls
          miso := s.miso, plan := plan, resetLow := false, changes := (State.start plan s).changes
          pending := s.pending } := by
  have frame := (State.start_posed plan s quiet).frame
  have opened := s.opened_eq plan
  unfold OnlyControl at frame
  generalize State.start plan s = t at frame ⊢
  generalize s.opened plan = u at frame opened
  rw [frame, opened]

/-- Rest Control leaves a part with a lease awake (R132, R133). -/
theorem State.judgeRest_leased {i : SlotNo} {l : Lease} (at_ : s.leaseAt i = some l) (awake : s.rest.part = .awake) :
    s.judgeRest = s := by
  have leased : s.hasLease = true := List.any_eq_true.2 ⟨i, List.mem_finRange i, by rw [at_]; rfl⟩
  unfold State.judgeRest State.restConditions
  rw [awake, leased]
  split <;> rfl

theorem bootLease_eq {window : Nat} (open_ : 0 < window) (n : Nat) (x : Dom × Level) :
    bootLease window n x
      = { creation := n + 1, owner := .boot, domain := x.1, level := x.2, term := window
          remaining := some window, lapse := .release, tag := 0, survives := false, binding := none
          offer := none, expiryMark := false, windowMark := false } := by
  simp [bootLease, newLease, bootTemplate, open_.ne']

/-- A domain powered by a plan has the record of the spec, over its parent's effective level. -/
theorem risen_eq_started {plan3 : Bool} {up : Dom → Bool} {parentLevel : Dom → Reach} (d : Dom)
    (third : plan3 = true ↔ plan = 3) (demanded : up d = decide (planReach plan d ≠ none))
    (levels : ∀ p, parentLevel p = if (up p && pg p) = true then some .hold else none) :
    risen plan d (pg d) (up d) (calledBy pg up d)
      = started d (pg d) plan3 (planReach plan d) (((Config.defaultTree d).1.map parentLevel).getD none) := by
  have derived : planDerived plan d = if d = 4 ∧ plan3 = true then some .slow else none := by
    unfold planDerived; simp only [third]
  have called : calledBy pg up d
      = decide ((Config.defaultTree d).1 ≠ none
        ∧ reachRank (some (Config.defaultTree d).2)
          ≤ reachRank (((Config.defaultTree d).1.map parentLevel).getD none)) := by
    unfold calledBy
    cases (Config.defaultTree d).1 with
    | none => rfl
    | some p =>
      simp only [Option.map_some, Option.getD_some, levels]
      cases up p && pg p <;> cases (Config.defaultTree d).2 <;> rfl
  unfold risen started fed
  rw [demanded, called, derived]
  simp only [decide_eq_true_eq, ne_eq, ite_not]
  congr

/-- The plan the straps select, as the table of R163 gives it. -/
theorem planRom_planOf (plan1 plan0 : Bool) :
    Config.planRom (planOf plan1 plan0)
      = (match plan1, plan0 with
        | false, false => ([(0, .full)], 2048)
        | false, true => ([(0, .full), (1, .full)], 2048)
        | true, false => ([(0, .full), (1, .full), (2, .full), (3, .full), (4, .slow)], 4096)
        | true, true => ([(0, .full), (4, .slow), (5, .full)], 8192)) := by
  cases plan1 <;> cases plan0 <;> rfl

/-- The slots of a fresh table as the spec writes them (R1, R4, R164). -/
theorem Fresh.slot_eq {rom : List (Dom × Level)} {window : Nat} (h : Fresh rom window t) (open_ : 0 < window)
    (i : SlotNo) :
    t.slot i =
      match rom[i.1]? with
      | none => { gen := 0, cond := .free }
      | some x =>
        { gen := 0
          cond := .lease
            { creation := i.1 + 1, owner := .boot, domain := x.1, level := x.2, term := window
              remaining := some window, lapse := .release, tag := 0, survives := false, binding := none
              offer := none, expiryMark := false, windowMark := false } } := by
  rw [h.slot, planSlot]
  cases rom[i.1]? with
  | none => rfl
  | some x => simp only [bootLease_eq open_]

/-- Settles O44: the plan's leases are installed in slot order, and its demands power the domains one by one. -/
theorem partStartInstallsThePlan : Obligations.PartStartInstallsThePlan := by
  intro s plan1 plan0 rom window low table
  have rom_eq : Config.planRom (planOf plan1 plan0) = (rom, window) := (planRom_planOf plan1 plan0).trans table.symm
  have straps : (planOf plan1 plan0).1 = 2 * plan1.toNat + plan0.toNat := by cases plan1 <;> cases plan0 <;> rfl
  have third : (plan1 && plan0) = true ↔ planOf plan1 plan0 = 3 := by cases plan1 <;> cases plan0 <;> decide
  have exec_eq : exec (.partStart plan1 plan0) s = .next (State.start (planOf plan1 plan0) s.begin).judgeRest := by
    change State.occur s.resetLow (State.start (planOf plan1 plan0)) s = _
    rw [low]
    rfl
  generalize planOf plan1 plan0 = plan at *
  have fresh := State.start_fresh plan s.begin
  have posed := State.start_posed plan s.begin rfl
  have frame := State.start_frame plan s.begin rfl
  have demand := fresh.tableDemand
  have open_ := (planRom_window plan).1
  have held : ∃ l, (State.start plan s.begin).leaseAt 0 = some l := by
    rw [fresh.leaseAt]; fin_cases plan <;> exact ⟨_, rfl⟩
  rw [rom_eq] at fresh frame open_
  refine ⟨State.start plan s.begin, ?_, ?_⟩
  · obtain ⟨l, at_⟩ := held
    rw [exec_eq, State.judgeRest_leased at_ (by rw [frame]; rfl)]
  clear exec_eq held
  generalize State.start plan s.begin = t at *
  refine ⟨by rw [frame], by rw [frame]; exact straps, fresh.slot_eq open_, fresh.counter, by rw [frame]; rfl, by rw [frame],
    by rw [frame]; rfl, fresh.termClaims, fresh.windowClaims, fresh.watch, by rw [frame]; rfl, by rw [frame]; rfl,
    by rw [frame]; rfl, fun c => ⟨?_, ?_, ?_⟩, fun d => ⟨?_, posed.changes d⟩, by rw [frame]; rfl, by rw [frame]; rfl⟩
  · rw [frame]; exact Vec.get_replicate _ c
  · rw [frame]; exact Vec.get_replicate _ c
  · rw [frame]; exact Vec.get_replicate _ c
  · rw [demand, posed.ctrl]
    refine risen_eq_started d third rfl fun p => ?_
    rw [posed.ctrl]
    exact risen_effLevel (posed.led p)

end Sys2Proof.Machine

/-! ## What a take hands on -/

namespace Sys2Proof.Machine

open Sys2Proof.Statement

variable {s t : State}

/-! ### The three passes of the hand-over (R18, R98) -/

/-- A controller handed the same demands again is as it was. -/
theorem Ctrl.hand_again (r : Ctrl) (lease derived : Reach) :
    (r.hand lease derived).hand lease derived = r.hand lease derived := by
  simp [Ctrl.hand, Ctrl.demand]

/-- The lease demands handed to some domains (R18). -/
theorem State.handLeases_ctrl (ds : List Dom) (e : Dom) (s : State) :
    (ds.foldl State.handLease s).ctrl e
      = if e ∈ ds then (s.ctrl e).hand (s.tableDemand e) (s.ctrl e).derivedDemand else s.ctrl e := by
  induction ds generalizing s with
  | nil => rfl
  | cons d ds ih =>
    rw [List.foldl_cons, ih, State.handLease_tableDemand, State.handLease, State.modCtrl_ctrl]
    by_cases he : e = d
    · subst he
      simp only [if_true, List.mem_cons_self]
      split
      · exact Ctrl.hand_again ..
      · rfl
    · simp [he]

/-- Some domains counted anew, each by its own record (R97). -/
theorem State.recounts_ctrl (ds : List Dom) (e : Dom) (s : State) :
    (ds.foldl (fun t d => t.recount d) s).ctrl e
      = if e ∈ ds then { s.ctrl e with counts := (s.ctrl e).counted } else s.ctrl e := by
  induction ds generalizing s with
  | nil => rfl
  | cons d ds ih =>
    rw [List.foldl_cons, ih, State.recount_ctrl]
    by_cases he : e = d
    · subst he
      simp only [if_true, List.mem_cons_self]
      split <;> rfl
    · simp [he]

/-- The derived demand of a domain rests on the setups and the counts of the others alone (R97). -/
theorem State.derivedFrom_congr (setup : ∀ c, (t.ctrl c).setup = (s.ctrl c).setup)
    (counts : ∀ c, (t.ctrl c).counts = (s.ctrl c).counts) (p : Dom) : t.derivedFrom p = s.derivedFrom p := by
  simp only [State.derivedFrom, setup, counts]

theorem State.recomputeParent_setup (s : State) (d e : Dom) :
    ((s.recomputeParent d).ctrl e).setup = (s.ctrl e).setup := by
  rw [State.recomputeParent_ctrl]; split <;> rfl

theorem State.recomputeParent_counts (s : State) (d e : Dom) :
    ((s.recomputeParent d).ctrl e).counts = (s.ctrl e).counts := by
  rw [State.recomputeParent_ctrl]; split <;> rfl

theorem State.recomputeParent_derivedFrom (s : State) (d p : Dom) :
    (s.recomputeParent d).derivedFrom p = s.derivedFrom p :=
  State.derivedFrom_congr (s.recomputeParent_setup d) (s.recomputeParent_counts d) p

theorem State.recomputeParents_derivedFrom (ds : List Dom) (p : Dom) (s : State) :
    (ds.foldl (fun t d => t.recomputeParent d) s).derivedFrom p = s.derivedFrom p := by
  induction ds generalizing s with
  | nil => rfl
  | cons d ds ih => rw [List.foldl_cons, ih, State.recomputeParent_derivedFrom]

/-- The parents of some domains handed their derived demands (R98). -/
theorem State.recomputeParents_ctrl (ds : List Dom) (e : Dom) (s : State) :
    (ds.foldl (fun t d => t.recomputeParent d) s).ctrl e
      = if ∃ c ∈ ds, (s.ctrl c).setup.parent = some e then (s.ctrl e).hand (s.ctrl e).leaseDemand (s.derivedFrom e)
        else s.ctrl e := by
  induction ds generalizing s with
  | nil => simp
  | cons d ds ih =>
    rw [List.foldl_cons, ih]
    simp only [State.recomputeParent_setup, State.recomputeParent_derivedFrom, List.exists_mem_cons_iff]
    rw [State.recomputeParent_leaseDemand, State.recomputeParent_ctrl]
    by_cases first : (s.ctrl d).setup.parent = some e
    · simp only [first, if_true, true_or]
      split
      · exact Ctrl.hand_again ..
      · rfl
    · simp only [first, if_false, false_or]

/-! ### The hand-over -/

/-- A record handed its lease demand, and counted anew where that moved it (R18, R98). -/
def Ctrl.leaseHanded (r : Ctrl) (lease : Reach) : Ctrl :=
  if lease = r.leaseDemand then r
  else { r.hand lease r.derivedDemand with counts := (r.hand lease r.derivedDemand).counted }

theorem Ctrl.leaseHanded_eq (r : Ctrl) (lease : Reach) :
    r.leaseHanded lease
      = { r with
          leaseDemand := lease
          counts := if lease = r.leaseDemand then r.counts else Ctrl.counted { r with leaseDemand := lease }
          demandPending := r.demandPending || decide (reachMax lease r.derivedDemand ≠ r.demand) } := by
  unfold Ctrl.leaseHanded
  split
  · next same => subst same; simp [Ctrl.demand]
  · rfl

/-- The domains whose lease demand the table has moved (R18). -/
def State.moved (s : State) : List Dom :=
  (List.finRange 8).filter (fun d => decide (s.tableDemand d ≠ (s.ctrl d).leaseDemand))

theorem State.mem_moved (s : State) (d : Dom) : d ∈ s.moved ↔ s.tableDemand d ≠ (s.ctrl d).leaseDemand := by
  simp [State.moved]

/-- The state when every moved domain has its lease demand and is counted anew. -/
def State.recounted (s : State) : State := s.moved.foldl (fun t d => t.recount d) (s.moved.foldl State.handLease s)

theorem State.handOn_recounted (s : State) :
    s.handOn = s.moved.foldl (fun t d => t.recomputeParent d) s.recounted := rfl

theorem State.recounted_ctrl (s : State) (d : Dom) : s.recounted.ctrl d = (s.ctrl d).leaseHanded (s.tableDemand d) := by
  rw [State.recounted, State.recounts_ctrl, State.handLeases_ctrl]
  by_cases same : s.tableDemand d = (s.ctrl d).leaseDemand <;> simp [State.mem_moved, same, Ctrl.leaseHanded]

/-- The hand-over of lease demands, and of derived demands to the parents of the domains they moved (R18, R98). -/
theorem State.handOn_ctrl (s : State) (d : Dom) :
    s.handOn.ctrl d
      = if ∃ c, (s.ctrl c).setup.parent = some d ∧ s.tableDemand c ≠ (s.ctrl c).leaseDemand then
          ((s.ctrl d).leaseHanded (s.tableDemand d)).hand (s.tableDemand d) (s.handOn.derivedFrom d)
        else (s.ctrl d).leaseHanded (s.tableDemand d) := by
  rw [State.handOn_recounted, State.recomputeParents_derivedFrom, State.recomputeParents_ctrl]
  simp only [State.recounted_ctrl, Ctrl.leaseHanded_eq, State.mem_moved, and_comm]

/-- A hand-over leaves what its rules say, and nothing else of a controller changes (R18, R76, R97, R98). -/
theorem State.handOn_onlyHanded (s : State) : OnlyHanded s s.handOn := fun d => by
  rw [State.handOn_ctrl]
  unfold derivedAfterTake
  simp only [State.handOn_tableDemand]
  split
  · rw [Ctrl.leaseHanded_eq]; rfl
  · rw [Ctrl.leaseHanded_eq]; simp

/-- What was handed rests on the controllers and the table alone. -/
theorem OnlyHanded.congr {s' t' : State} (h : OnlyHanded s t) (before : s'.ctrls = s.ctrls) (ctrls : t'.ctrls = t.ctrls)
    (slots : t'.slots = t.slots) : OnlyHanded s' t' := fun d => by
  have old : ∀ e, s'.ctrl e = s.ctrl e := fun e => by simp only [State.ctrl, before]
  have new : ∀ e, t'.ctrl e = t.ctrl e := fun e => by simp only [State.ctrl, ctrls]
  have table : ∀ e, t'.tableDemand e = t.tableDemand e := State.tableDemand_congr slots
  have derived : t'.derivedFrom d = t.derivedFrom d := by simp only [State.derivedFrom, new]
  have after : derivedAfterTake s' t' d = derivedAfterTake s t d := by
    simp only [derivedAfterTake, old, table, derived]
  rw [new, old, table, after]
  exact h d

/-- Where no lease demand moves, nothing is handed. -/
theorem OnlyHanded.same (h : OnlyHanded s t) (stand : ∀ d, t.tableDemand d = (s.ctrl d).leaseDemand) :
    t.ctrls = s.ctrls := by
  refine Vec.ext fun d => (h d).trans (show _ = s.ctrl d from ?_)
  have derived : derivedAfterTake s t d = (s.ctrl d).derivedDemand := by simp [derivedAfterTake, stand]
  rw [derived, stand]
  simp [Ctrl.demand]

end Sys2Proof.Machine

/-! ## An accepted request -/

namespace Sys2Proof.Machine

open Sys2Proof.Statement

variable {s t u : State} {p : Client} {r : Request} {k : ReqKind} {body : List Byte}

/-! ### The end of the take -/

/-- What the take of an accepted request comes to, whose rule leaves `u`: the answer, what is handed on, and the
judgement of Rest Control, beside what the rule did. -/
structure Accepted (s : State) (p : Client) (r : Request) (body : List Byte) (u t : State) : Prop where
  answered : Answered s t p r .ok body
  handed : OnlyHanded s t
  frame : t = { u with ctrls := t.ctrls, ports := t.ports, turn := t.turn, rest := t.rest }
  judged : RestJudged s t

/-- A request that its rule accepts, which moves no controller and not Rest Control itself. -/
theorem accepted (turn : Turn s p r k) (restart : k ≠ .clientRestart)
    (reply : ruleOf k p r.body s.begin = accept body u) (ctrls : u.ctrls = s.ctrls) (rest : u.rest = s.rest) :
    ∃ t, exec (commandOf k) s = .next t ∧ Accepted s p r body u t := by
  obtain ⟨running, next, rfl⟩ := turn
  have served : (State.serve (ruleOf r.kind) p r s.begin).handOn.judgeRest = s.taken p r := rfl
  have frame : State.serve (ruleOf r.kind) p r s.begin
      = { u with ports := (State.serve (ruleOf r.kind) p r s.begin).ports, turn := p + 1 } := by
    rw [State.serve_frame, reply]; rfl
  refine ⟨s.taken p r, exec_taken running next, ⟨?_, fun c hc => ?_, s.taken_turn p r⟩, ?_, ?_, ?_⟩
  · simpa [reply, accept] using s.taken_port p r
  · rw [State.taken_port_ne s p r hc]
    exact ruleOf_port s.begin p r c (.inr restart)
  · rw [← served]
    generalize State.serve (ruleOf r.kind) p r s.begin = v at frame ⊢
    refine OnlyHanded.congr v.handOn_onlyHanded ?_ ?_ (State.judgeRest_aside _).slots
    · rw [frame]; exact ctrls.symm
    · rw [State.judgeRest_frame]
  · rw [State.taken_frame, frame]
  · rw [← served]
    generalize State.serve (ruleOf r.kind) p r s.begin = v at frame ⊢
    have stands : v.handOn.rest = s.rest := by rw [State.handOn_frame, frame]; exact rest
    exact (State.judgeRest_rest _).trans (congrArg (fun x => judgedRest x _) stands)

theorem Accepted.slots (h : Accepted s p r body u t) : t.slots = u.slots := by rw [h.frame]
theorem Accepted.slot (h : Accepted s p r body u t) (i : SlotNo) : t.slot i = u.slot i := by
  simp only [State.slot, h.slots]
theorem Accepted.watch (h : Accepted s p r body u t) (w : WatchId) : t.watch w = u.watch w := by rw [h.frame]; rfl
theorem Accepted.queue (h : Accepted s p r body u t) (c : Client) : t.queue c = u.queue c := by rw [h.frame]; rfl

/-- A request that moves no demand hands nothing on. -/
theorem Accepted.ctrls (h : Accepted s p r body u t) (stand : ∀ d, u.tableDemand d = (s.ctrl d).leaseDemand) :
    t.ctrls = s.ctrls :=
  OnlyHanded.same h.handed fun d => (State.tableDemand_congr h.slots d).trans (stand d)

end Sys2Proof.Machine

/-! ## Lease requests -/

namespace Sys2Proof.Machine

open Sys2Proof.Statement

variable {s t : State} {p : Client} {r : Request} {k : ReqKind} {body : List Byte}

/-! ### LEASE.TAKE (R27, R28) -/

/-- The record of output changes plays no part in a renumbering (R10). -/
theorem State.makeRoom_begin (s : State) : s.begin.makeRoom = s.makeRoom.begin := by
  unfold State.makeRoom
  rw [State.begin_counter]
  split <;> rfl

/-- A LEASE.TAKE whose checks pass creates a lease and answers its handle, its number and its status (R26 to R28). -/
theorem leaseTakeRule_of {a : Template} {i : SlotNo} (args : takeArgs r.body = some a)
    (quota : s.charge p < (s.client p).quota) (free : LowestFree s i) :
    leaseTakeRule p r.body s
      = accept (handleBytes { slot := i, gen := (s.slot i).gen } ++ bytes4 (s.makeRoom.counter + 1)
          ++ [statusByte s a.domain a.level]) (s.create i (.client p) a none) := by
  have handle : (s.create i (.client p) a none).handleAt i = { slot := i, gen := (s.slot i).gen } := by
    rw [State.handleAt, State.create_slot, if_pos rfl]
  simp only [leaseTakeRule, args, withForm_some, withQuota_of quota, State.freeSlot_iff.2 free, handle]
  rfl

/-- Settles O5: the rule is a creation, and the end of the take hands on the demand it raises. -/
theorem takeCreatesLease : Obligations.TakeCreatesLease := by
  intro s p r a i turn args quota free
  have reply := leaseTakeRule_of (s := s.begin) args quota free
  obtain ⟨t, exec_eq, acc⟩ := accepted turn (by decide) reply (by rw [State.create_frame]; rfl)
    (by rw [State.create_frame]; rfl)
  have counter : t.counter = s.makeRoom.counter + 1 := by
    rw [acc.frame, ← State.begin_counter s.makeRoom, ← s.makeRoom_begin]; rfl
  refine ⟨t, exec_eq, ?_, fun j hj => ?_, counter, ?_, acc.handed, ?_, acc.judged⟩
  · rw [acc.slot, State.create_slot, if_pos rfl, s.makeRoom_begin]; rfl
  · rw [acc.slot, State.create_slot, if_neg hj, s.makeRoom_begin]; rfl
  · have answered := acc.answered
    rw [s.makeRoom_begin] at answered
    rw [counter]
    exact answered
  · have frame := acc.frame
    rw [State.create_frame] at frame
    rw [frame]
    rfl

/-! ### LEASE.RENEW and LEASE.ALTER (R30, R32, R33) -/

theorem Lease.renewed_none (l : Lease) : l.renewed none = { l with remaining := some l.term } := rfl

theorem Lease.renewed_some (l : Lease) (n : Nat) :
    l.renewed (some n) = { l with term := n, remaining := fullTerm n } := by
  cases n <;> rfl

theorem Lease.renewed_asks (l : Lease) (nt : Option Nat) : (l.renewed nt).asks = l.asks := by
  cases nt with
  | none => rfl
  | some n => rw [Lease.renewed_some]; rfl

/-- A lease changed for one that asks the same moves no demand. -/
theorem State.putLease_asks {i : SlotNo} {l l' : Lease} (at_ : s.leaseAt i = some l) (asks : l'.asks = l.asks) :
    AsksSame s (s.putLease i l') := fun j => by
  rw [State.putLease_leaseAt]
  split
  · next hj => rw [hj, at_, Option.map_some, Option.map_some, asks]
  · rfl

/-- The slots after a lease that a handle names was changed. -/
theorem putLease_slots {h : Handle} {l l' : Lease} (named : Names s h l)
    (slots : ∀ i, t.slot i = (s.putLease h.slot l').slot i) :
    t.slot h.slot = { gen := h.gen, cond := .lease l' } ∧ OtherSlots s t h.slot := by
  refine ⟨?_, fun j hj => ?_⟩
  · rw [slots, State.putLease_slot, if_pos rfl, named]
  · rw [slots, State.putLease_slot, if_neg hj]

/-- A LEASE.RENEW whose checks pass (R29, R30). -/
theorem leaseRenewRule_of {h : Handle} {nt : Option Nat} {l : Lease} (args : renewArgs r.body = some (h, nt))
    (named : Names s h l) (owner : l.owner = .client p) (timed : ¬ (nt = none ∧ l.term = 0)) :
    leaseRenewRule p r.body s
      = accept
          ([statusByte s l.domain l.level] ++ bytes2 (l.renewed nt).term ++ bytes2 ((l.renewed nt).remaining.getD 0))
          (s.putLease h.slot (l.renewed nt)) := by
  have status : (s.statusOf (l.renewed nt)).code = statusByte s l.domain l.level := by
    have asks := l.renewed_asks nt
    simp only [Lease.asks, Prod.mk.injEq] at asks
    rw [State.statusOf, asks.1, asks.2]
    rfl
  simp only [leaseRenewRule, args, withForm_some, withOwned_of (State.named_slot named) owner, if_neg timed, status]
  rfl

/-- A LEASE.ALTER whose checks pass (R32, R33). -/
theorem leaseAlterRule_of {h : Handle} {level : Level} {l : Lease} (args : alterArgs r.body = some (h, level))
    (named : Names s h l) (owner : l.owner = .client p) :
    leaseAlterRule p r.body s
      = accept [statusByte s l.domain level] (s.putLease h.slot { l with level := level }) := by
  simp only [leaseAlterRule, args, withForm_some, withOwned_of (State.named_slot named) owner]
  rfl

/-- Settles O7: both rules change one lease in its slot; a renewal asks what the lease asked, so it hands nothing on. -/
theorem renewAndAlterWriteTheirFields : Obligations.RenewAndAlterWriteTheirFields := by
  refine ⟨fun s p r h nt l l' turn args named owner timed demand fields => ?_,
    fun s p r h level l turn args named owner => ?_⟩
  · have renewed : l' = l.renewed nt := by
      rw [fields]
      cases nt with
      | none => rfl
      | some n => exact (l.renewed_some n).symm
    subst renewed
    have reply := leaseRenewRule_of (s := s.begin) args named owner timed
    obtain ⟨t, exec_eq, acc⟩ := accepted turn (by decide) reply rfl rfl
    have at_ : s.leaseAt h.slot = some l := State.named_leaseAt (State.named_slot named)
    have asks := State.putLease_asks (s := s.begin) at_ (l.renewed_asks nt)
    have ctrls : t.ctrls = s.ctrls := acc.ctrls fun d => (asks.tableDemand d).trans (demand d).symm
    obtain ⟨slot, others⟩ := putLease_slots named acc.slot
    refine ⟨t, exec_eq, slot, others, acc.answered, ?_, acc.judged⟩
    have frame := acc.frame
    rw [ctrls] at frame
    rw [frame]
    rfl
  · have reply := leaseAlterRule_of (s := s.begin) args named owner
    obtain ⟨t, exec_eq, acc⟩ := accepted turn (by decide) reply rfl rfl
    obtain ⟨slot, others⟩ := putLease_slots named acc.slot
    refine ⟨t, exec_eq, slot, others, acc.answered, acc.handed, ?_, acc.judged⟩
    rw [acc.frame]
    rfl

/-! ### LEASE.RELEASE and LEASE.REVOKE (R34, R35, R41, R42) -/

/-- The table after a lease that a handle names was retired. -/
theorem retire_tornDown {h : Handle} {l : Lease} (named : Names s h l)
    (slots : ∀ i, t.slot i = (s.retire h.slot).slot i) (watches : ∀ w, t.watch w = (s.retire h.slot).watch w) :
    t.slot h.slot = leftBy h.gen l ∧ OtherSlots s t h.slot
      ∧ WatchesTornDown s t (fun i _ => decide (i = h.slot)) := by
  have at_ : s.leaseAt h.slot = some l := State.named_leaseAt (State.named_slot named)
  refine ⟨?_, fun j hj => ?_, fun i l' w x at_' gone bound held => ?_, fun w unbound => ?_⟩
  · rw [slots, State.retire_slot _ _ _ at_, if_pos rfl, named]
    rfl
  · rw [slots, State.retire_slot _ _ _ at_, if_neg hj]
  · obtain rfl : i = h.slot := of_decide_eq_true gone
    obtain rfl : l = l' := Option.some.inj (at_.symm.trans at_')
    rw [watches, State.retire_watch_bound at_ bound, if_pos rfl, held, Option.map_some, rearmedWatch_eq]
    rfl
  · rw [watches]
    have other := unbound h.slot l at_ (decide_eq_true rfl)
    cases bound : l.binding with
    | none => exact State.retire_watch_unbound at_ bound w
    | some v =>
      rw [State.retire_watch_bound at_ bound, if_neg fun hw => other (by rw [bound, hw])]

/-- A LEASE.RELEASE whose checks pass (R34, R35). -/
theorem leaseReleaseRule_of {h : Handle} {l : Lease} (args : handleArgs r.body = some h) (named : Names s h l)
    (owner : l.owner = .client p) : leaseReleaseRule p r.body s = accept [] (s.retire h.slot) := by
  simp only [leaseReleaseRule, args, withForm_some, withOwned_of (State.named_slot named) owner]

/-- The state after the lease `l` that a handle names was revoked. -/
def State.revoked (h : Handle) (l : Lease) (s : State) : State :=
  (s.retire h.slot).dropAdoption.notifyOwner l.owner .revoked (.lease h) (.level l.domain l.level)

/-- A LEASE.REVOKE whose checks pass (R41, R42). -/
theorem leaseRevokeRule_of {h : Handle} {l : Lease} (args : handleArgs r.body = some h) (role : s.supervisor = p)
    (named : Names s h l) : leaseRevokeRule p r.body s = accept [ownerCode l.owner] (s.revoked h l) := by
  simp only [leaseRevokeRule, args, withForm_some, withRole_of role, withLease_of (State.named_slot named)]
  rfl

/-- What a notice leaves in a queue rests on that queue alone (R155). -/
theorem State.notify_queue_congr {c o : Client} {n : NoticeKind} {sub : Subject} {det : Detail}
    (same : ∀ c, t.queue c = s.queue c) : (t.notify c n sub det).queue o = (s.notify c n sub det).queue o := by
  unfold State.notify
  simp only [same]
  split
  · simp only [State.putQueue_queue, same]
  · split <;> simp only [State.putQueue_queue, same]

theorem State.putQueue_changes (c : Client) (es : List Entry) (ov : Bool) (s : State) :
    (s.putQueue c es ov).changes = s.changes ++ attnChange s (s.putQueue c es ov) c := by
  unfold attnChange
  rw [State.putQueue_queue, if_pos rfl]
  unfold State.putQueue
  dsimp only
  by_cases attn : (s.queue c).attn = (!es.isEmpty || ov)
  · rw [if_pos attn, if_pos attn.symm]
    exact (List.append_nil _).symm
  · rw [if_neg attn, if_neg (Ne.symm attn)]
    rfl

/-- A notice moves one ATTN_N, where it moves it (R160). -/
theorem State.notify_changes (c : Client) (n : NoticeKind) (sub : Subject) (det : Detail) (s : State) :
    (s.notify c n sub det).changes = s.changes ++ attnChange s (s.notify c n sub det) c := by
  unfold State.notify
  dsimp only
  split
  · exact State.putQueue_changes ..
  · split <;> exact State.putQueue_changes ..

/-- A lease retired and the adoption window count kept only where a BOOT lease remains (R2, R165). -/
theorem State.retired_frame (i : SlotNo) (s : State) :
    (s.retire i).dropAdoption
      = { s with
          slots := (s.retire i).slots, watches := (s.retire i).watches
          adoption := if (s.retire i).hasBoot then s.adoption else none } := by
  have retired := s.retire_frame i
  unfold OnlyTable at retired
  unfold State.dropAdoption
  split
  · exact retired
  · generalize s.retire i = u at retired ⊢
    rw [retired]

/-- A revocation changes the table, the adoption window count and what its notice reaches (R41, R42, R165). -/
theorem State.revoked_frame (h : Handle) (l : Lease) (s : State) :
    s.revoked h l
      = { s with
          slots := (s.retire h.slot).slots, watches := (s.retire h.slot).watches
          adoption := if (s.retire h.slot).hasBoot then s.adoption else none
          queues := (s.revoked h l).queues, changes := (s.revoked h l).changes } := by
  have told : OnlyNotices (s.retire h.slot).dropAdoption (s.revoked h l) := State.notifyOwner_frame ..
  unfold OnlyNotices at told
  rw [State.retired_frame] at told
  exact told

theorem State.retired_queue (i : SlotNo) (s : State) (c : Client) : (s.retire i).dropAdoption.queue c = s.queue c := by
  rw [State.retired_frame]; rfl

/-- REVOKED reaches the queue of a client owner, and no other (R42). -/
theorem State.revoked_queue (h : Handle) (l : Lease) (s : State) (c : Client) :
    (s.revoked h l).queue c
      = if l.owner = .client c then (s.notify c .revoked (.lease h) (.level l.domain l.level)).queue c
        else s.queue c := by
  unfold State.revoked
  cases l.owner with
  | boot => exact s.retired_queue h.slot c
  | client o =>
    by_cases same : o = c
    · subst same
      rw [if_pos rfl]
      exact State.notify_queue_congr (s.retired_queue h.slot)
    · rw [if_neg fun e => same (Owner.client.inj e)]
      exact (State.notify_queue_ne (Ne.symm same)).trans (s.retired_queue h.slot c)

/-- The change of ATTN_N of an owner from `s` to `t`; BOOT has none (R153, R160). -/
def ownerAttn (s t : State) : Owner → List PinChange
  | .client c => attnChange s t c
  | .boot => []

/-- A revocation moves the ATTN_N of a client owner, where its notice moves it (R160). -/
theorem State.revoked_changes (h : Handle) (l : Lease) (s : State) :
    (s.revoked h l).changes = s.changes ++ ownerAttn s (s.revoked h l) l.owner := by
  have kept : (s.retire h.slot).dropAdoption.changes = s.changes := by rw [State.retired_frame]
  unfold State.revoked
  cases l.owner with
  | boot => exact kept.trans (List.append_nil _).symm
  | client c =>
    refine (State.notify_changes ..).trans ?_
    simp only [kept, attnChange, ownerAttn, s.retired_queue]
    rfl

/-- Settles O8: both rules retire one lease; REVOKE lets go of the adoption window and tells a client owner besides. -/
theorem releaseAndRevokeRetire : Obligations.ReleaseAndRevokeRetire := by
  refine ⟨fun s p r h l turn args named owner => ?_, fun s p r h l turn args role named => ?_⟩
  · have reply := leaseReleaseRule_of (s := s.begin) args named owner
    have retired := s.begin.retire_frame h.slot
    obtain ⟨t, exec_eq, acc⟩ := accepted turn (by decide) reply (by rw [retired]; rfl) (by rw [retired]; rfl)
    obtain ⟨slot, others, watches⟩ := retire_tornDown (s := s.begin) named acc.slot acc.watch
    refine ⟨t, exec_eq, slot, others, watches, acc.answered, acc.handed, ?_, acc.judged⟩
    have frame := acc.frame
    rw [retired] at frame
    rw [frame]
    rfl
  · have reply := leaseRevokeRule_of (s := s.begin) args role named
    have revoked := s.begin.revoked_frame h l
    obtain ⟨t, exec_eq, acc⟩ := accepted turn (by decide) reply (by rw [revoked]; rfl) (by rw [revoked]; rfl)
    obtain ⟨slot, others, watches⟩ := retire_tornDown (s := s.begin) (t := t) named
      (fun i => by rw [acc.slot, revoked]; rfl) (fun w => by rw [acc.watch, revoked]; rfl)
    have boot : t.hasBoot = (s.begin.retire h.slot).hasBoot := State.hasBoot_congr (by rw [acc.slots, revoked])
    have adoption : t.adoption = if t.hasBoot then s.adoption else none := by rw [boot, acc.frame, revoked]; rfl
    have queue : ∀ c, t.queue c = (s.begin.revoked h l).queue c := acc.queue
    have changes : t.changes = ownerAttn s t l.owner := by
      have moved : ownerAttn s t l.owner = ownerAttn s.begin (s.begin.revoked h l) l.owner := by
        cases l.owner with
        | client c => simp only [ownerAttn, attnChange, queue]; rfl
        | boot => rfl
      rw [moved, acc.frame]
      exact s.begin.revoked_changes h l
    have frame : t = { s with
        slots := t.slots, watches := t.watches, queues := t.queues, adoption := t.adoption, ctrls := t.ctrls
        ports := t.ports, turn := t.turn, rest := t.rest, changes := t.changes } := by
      have frame := acc.frame
      rw [revoked] at frame
      rw [frame]
      rfl
    rw [changes] at frame
    refine ⟨t, exec_eq, slot, others, watches, fun c => ?_, adoption, acc.answered, acc.handed, frame, acc.judged⟩
    rw [queue, State.revoked_queue]
    exact congrArg (fun q => if l.owner = .client c then q else s.queue c) (State.notify_queue_congr fun _ => rfl)

/-! ### The reading requests (R37, R39, R91, R131, R143, R179) -/

/-- A request whose rule answers from the state as it stands changes its port, the turn and Rest Control only. -/
theorem read_accepted (turn : Turn s p r k) (restart : k ≠ .clientRestart) (demand : DemandLaw s)
    (reply : ruleOf k p r.body s.begin = accept body s.begin) :
    ∃ t, exec (commandOf k) s = .next t ∧ Answered s t p r .ok body
      ∧ t = { s with ports := t.ports, turn := t.turn, rest := t.rest, changes := [] } ∧ RestJudged s t := by
  obtain ⟨t, exec_eq, acc⟩ := accepted turn restart reply rfl rfl
  have ctrls : t.ctrls = s.ctrls := acc.ctrls fun d => (demand d).symm
  refine ⟨t, exec_eq, acc.answered, ?_, acc.judged⟩
  have frame := acc.frame
  rw [ctrls] at frame
  exact frame

theorem leaseReadRule_of {h : Handle} {l : Lease} (args : handleArgs r.body = some h) (named : Names s h l) :
    leaseReadRule p r.body s = accept (s.leaseImage h.slot l) s := by
  simp only [leaseReadRule, args, withForm_some, withLease_of (State.named_slot named)]

theorem watchReadRule_of {w : WatchId} {x : Watch} (args : codeArgs 16 r.body = some w) (held : s.watch w = some x) :
    watchReadRule p r.body s = accept (s.watchImage w x) s := by
  simp only [watchReadRule, args, withForm_some, held]

theorem domainReadRule_of {d : Dom} (args : codeArgs 8 r.body = some d) :
    domainReadRule p r.body s = accept (s.domainImage d) s := by
  simp only [domainReadRule, args, withForm_some]

/-- Settles O9: each of the six rules answers from the state as it stands. -/
theorem readsAnswerAndChangeNothing : Obligations.ReadsAnswerAndChangeNothing := by
  intro s p r body demand turn kinds
  suffices reply : r.kind ≠ .clientRestart ∧ ruleOf r.kind p r.body s.begin = accept body s.begin from
    read_accepted turn reply.1 demand reply.2
  rcases kinds with ⟨h, l, kind, args, named, rfl⟩ | ⟨w, x, kind, args, held, rfl⟩ | ⟨kind, rfl⟩
    | ⟨d, kind, args, rfl⟩ | ⟨kind, rfl⟩ | ⟨kind, rfl⟩ <;> rw [kind] <;> refine ⟨by decide, ?_⟩
  · exact leaseReadRule_of (s := s.begin) (p := p) args named
  · exact watchReadRule_of (s := s.begin) (p := p) args held
  · rfl
  · exact domainReadRule_of (s := s.begin) (p := p) args
  · rfl
  · rfl

/-! ### The listing order (R11, R38, R39) -/

/-- Creation numbers ascend strictly in the listing order, for no two leases share one (R9, R11). -/
theorem State.leases_ascend (law : CreationLaw s) : s.leases.Pairwise (fun x y => x.2.creation < y.2.creation) := by
  have numbers : (s.leases.map (fun x => x.2.creation)).Nodup :=
    (s.leases_perm.map _).nodup_iff.2 law.1
  have distinct : s.leases.Pairwise (fun x y => x.2.creation ≠ y.2.creation) := List.pairwise_map.1 numbers
  exact (s.leases_sorted.and distinct).imp fun h => lt_of_le_of_ne h.1 h.2

theorem State.mem_listed {f : Filter} {cursor : Nat} {x : SlotNo × Lease} :
    x ∈ s.listed f cursor ↔ s.leaseAt x.1 = some x.2 ∧ f.selects x.2 = true ∧ cursor < x.2.creation := by
  simp [State.listed, State.mem_leases]

theorem State.listed_ascend (law : CreationLaw s) (f : Filter) (cursor : Nat) :
    (s.listed f cursor).Pairwise (fun x y => x.2.creation < y.2.creation) :=
  (State.leases_ascend law).filter _

/-- The first `n` of a strictly ascending list come before every other member. -/
theorem take_before {xs : List (SlotNo × Lease)}
    (sorted : xs.Pairwise (fun x y => x.2.creation < y.2.creation)) (n : Nat)
    {x y : SlotNo × Lease} (hx : x ∈ xs.take n) (hy : y ∈ xs.drop n) : x.2.creation < y.2.creation := by
  rw [← List.take_append_drop n xs, List.pairwise_append] at sorted
  obtain ⟨-, -, across⟩ := sorted
  exact across x hx y hy

theorem leaseListRule_of {f : Filter} {cursor : Nat} (args : listArgs r.body = some (f, cursor)) :
    leaseListRule p r.body s = accept (s.listBody (s.listed f cursor)) s := by
  simp only [leaseListRule, args, withForm_some]

/-- Settles O10: the items are the first eight of the listing, the more mark says whether it goes on. -/
theorem listGivesTheNextEight : Obligations.ListGivesTheNextEight := by
  intro s p r f cursor creation demand turn args
  have reply := leaseListRule_of (s := s.begin) (p := p) args
  obtain ⟨t, exec_eq, answered, frame, judged⟩ := read_accepted turn (by decide) demand reply
  have sorted := State.listed_ascend creation f cursor
  generalize listing : s.listed f cursor = xs at sorted
  have member : ∀ i l, (i, l) ∈ xs ↔ s.leaseAt i = some l ∧ f.selects l = true ∧ cursor < l.creation :=
    fun i l => listing ▸ State.mem_listed
  refine ⟨t, xs.take 8, decide (8 < xs.length), exec_eq, ?_, frame, judged, List.length_take_le 8 xs,
    sorted.sublist (List.take_sublist 8 xs), fun x hx => (member x.1 x.2).1 (List.mem_of_mem_take hx),
    fun i l at_ selected above left => ?_, fun more => ?_, State.leases_ascend creation, fun i l => State.mem_leases⟩
  · subst listing
    exact answered
  · have rest : (i, l) ∈ xs.drop 8 := by
      have mem := (member i l).2 ⟨at_, selected, above⟩
      rw [← List.take_append_drop 8 xs, List.mem_append] at mem
      exact mem.resolve_left left
    have long : 8 < xs.length := by
      have := List.length_pos_of_mem rest
      rw [List.length_drop] at this
      omega
    exact ⟨List.length_take_of_le long.le, decide_eq_true long, fun x hx => take_before sorted 8 hx rest⟩
  · obtain ⟨⟨i, l⟩, rest⟩ : ∃ x, x ∈ xs.drop 8 := by
      refine List.exists_mem_of_length_pos ?_
      rw [List.length_drop]
      have := of_decide_eq_true more
      omega
    obtain ⟨at_, selected, above⟩ := (member i l).1 (List.mem_of_mem_drop rest)
    exact ⟨i, l, at_, selected, above, fun first => lt_irrefl _ (take_before sorted 8 first rest)⟩

end Sys2Proof.Machine

/-! ## What a step does to Rest Control -/

namespace Sys2Proof.Machine

open Sys2Proof.Statement

/-! ### The judgement at the end of a step (R132 to R136) -/

section Judgement

variable {s u : State}

/-- Rest Control as an event may leave it to the judgement: in its ranges, but that a rest delay may stand at 0 where
the rest conditions do not hold. -/
structure Ready (u : State) : Prop where
  idle : u.rest.part = .awake ∨ u.rest.part = .quiet → u.rest.timer = 0
  delay : u.rest.part = .restingPending →
    u.rest.timer ≤ Config.restDelay ∧ (1 ≤ u.rest.timer ∨ (u.resetLow = false ∧ u.restConditions = false))
  waking : u.rest.part = .waking → u.rest.timer = Config.wakingPeriods
  divider : u.rest.divider ≤ 31
  due : u.rest.due ≠ .none → u.rest.divider = 0

theorem TimerLaw.ready (law : TimerLaw s) (rest : u.rest = s.rest) : Ready u := by
  obtain ⟨idle, delay, waking, divider, due⟩ := law
  rw [← rest] at idle delay waking divider due
  exact ⟨idle, fun part => ⟨(delay part).2, .inl (delay part).1⟩, waking, divider, due⟩

/-- The judgement brings Rest Control back into its ranges. -/
theorem Ready.judged (h : Ready u) : TimerLaw u.judgeRest := by
  obtain ⟨divider, due⟩ := u.judgeRest_counts
  refine ⟨?_, ?_, ?_, divider.trans_le h.divider, fun owed => divider.trans (h.due (due ▸ owed))⟩
  all_goals
    have idle := h.idle
    have delay := h.delay
    have waking := h.waking
    unfold State.judgeRest
    split
    · next low =>
      intro part
      simp_all
    · cases part : u.rest.part <;> dsimp only <;> (try split) <;> simp_all [Config.restDelay, Config.wakingPeriods]

/-- The judgement leaves the part state in agreement with the rest conditions. -/
theorem State.judgeRest_judgedLaw (u : State) : JudgedLaw u.judgeRest := by
  intro high
  rw [State.resetLow_judged] at high
  rw [State.restConditions_judged, State.wakeCondition_judged]
  unfold State.judgeRest
  rw [if_neg (by simp [high])]
  cases part : u.rest.part <;> dsimp only <;> (try split) <;> simp_all

/-- The judgement neither puts the part to sleep nor ends its sleep. -/
theorem State.judgeRest_asleep (u : State) : u.judgeRest.asleep = u.asleep := by
  unfold State.judgeRest State.asleep
  split
  · rfl
  · cases part : u.rest.part <;> dsimp only <;> (try split) <;> simp_all

theorem State.judgeRest_restLaw (law : RestLaw u) : RestLaw u.judgeRest := by
  intro sleeps
  rw [State.judgeRest_asleep] at sleeps
  rw [State.judgeRest_frame]
  exact law sleeps

theorem State.judgeRest_heldLaw (law : HeldLaw u) : HeldLaw u.judgeRest := by
  intro low
  rw [State.resetLow_judged] at low
  have stays : u.judgeRest = u := by unfold State.judgeRest; rw [if_pos low]
  rw [stays]
  exact law low

end Judgement

/-! ### What leaves Rest Control alone -/

section Untimed

/-- Rest Control and the level of RESET_N are as they were. -/
structure Untimed (s t : State) : Prop where
  rest : t.rest = s.rest
  resetLow : t.resetLow = s.resetLow

theorem Untimed.refl (s : State) : Untimed s s := ⟨rfl, rfl⟩
theorem Untimed.trans {s t u : State} (h : Untimed s t) (k : Untimed t u) : Untimed s u :=
  ⟨k.rest.trans h.rest, k.resetLow.trans h.resetLow⟩

variable {s t : State}

theorem OnlyClients.untimed (h : OnlyClients s t) : Untimed s t := by
  unfold OnlyClients at h; rw [h]; exact ⟨rfl, rfl⟩
theorem OnlyDomains.untimed (h : OnlyDomains s t) : Untimed s t := by
  unfold OnlyDomains at h; rw [h]; exact ⟨rfl, rfl⟩
theorem OnlyPulses.untimed (h : OnlyPulses s t) : Untimed s t := by
  unfold OnlyPulses at h; rw [h]; exact ⟨rfl, rfl⟩
theorem OnlyPorts.untimed (h : OnlyPorts s t) : Untimed s t := by
  unfold OnlyPorts at h; rw [h]; exact ⟨rfl, rfl⟩

theorem State.create_untimed (i : SlotNo) (o : Owner) (a : Template) (b : Option WatchId) (s : State) :
    Untimed s (s.create i o a b) := by
  rw [State.create_frame]; exact ⟨rfl, rfl⟩

theorem State.dropAdoption_untimed (s : State) : Untimed s s.dropAdoption := by
  unfold State.dropAdoption; split <;> exact ⟨rfl, rfl⟩

theorem State.dropWatch_untimed (w : WatchId) (r : Watch) (s : State) : Untimed s (s.dropWatch w r) := by
  unfold State.dropWatch
  dsimp only
  split
  · exact ⟨rfl, rfl⟩
  · split <;> exact ⟨rfl, rfl⟩

theorem State.handOn_untimed (s : State) : Untimed s s.handOn := by
  rw [State.handOn_frame]; exact ⟨rfl, rfl⟩

variable {p : Client} {k : ReqKind}

theorem Granted.untimed (h : Granted s p k t) : Untimed s t := by
  cases h with
  | leaseTake => exact State.create_untimed ..
  | leaseRenew | leaseAlter | leaseWithdraw | watchSet | clientClearCause | clientQuota | superPass => exact ⟨rfl, rfl⟩
  | leaseRelease => exact (State.retire_frame ..).clients.untimed
  | leaseRevoke =>
    exact ((State.retire_frame ..).clients.untimed.trans (State.dropAdoption_untimed _)).trans
      (State.notifyOwner_frame ..).clients.untimed
  | leaseOffer => exact Untimed.trans (t := s.putLease _ _) ⟨rfl, rfl⟩ (State.notify_frame ..).clients.untimed
  | leaseAccept => exact Untimed.trans (t := s.putLease _ _) ⟨rfl, rfl⟩ (State.notifyOwner_frame ..).clients.untimed
  | leaseAdopt => exact Untimed.trans (t := s.putLease _ _) ⟨rfl, rfl⟩ (State.dropAdoption_untimed _)
  | watchDrop => exact State.dropWatch_untimed ..
  | domainSetup => exact (State.putSetup_frame ..).untimed
  | domainDivide => exact (State.divide_frame ..).untimed
  | domainClear => exact (s.event_frame _ _ (State.toDischarge_frame _)).untimed
  | clientRestart => exact (State.restart_frame ..).untimed
  | noticeFetch => exact (State.putQueue_frame ..).clients.untimed
  | read => exact .refl s

theorem State.served_untimed (s : State) (p : Client) (r : Request) :
    Untimed s (State.serve (ruleOf r.kind) p r s) := by
  have rule : Untimed s (ruleOf r.kind p r.body s).state := by
    rcases ruleOf_cases s p r with ⟨status, h⟩ | h
    · rw [h]
      change Untimed s (afterRefusal s p status)
      unfold afterRefusal
      split
      · exact (State.putQueue_frame ..).clients.untimed
      · exact .refl s
    · exact h.untimed
  exact rule.trans ⟨rfl, rfl⟩

theorem State.takeTerm_untimed (h : Handle) (s : State) : Untimed s (s.takeTerm h) := by
  unfold State.takeTerm
  dsimp only
  split
  · exact ⟨rfl, rfl⟩
  · next l _ =>
    split
    · have dropped : Untimed s { s with termClaims := s.termClaims.erase h } := ⟨rfl, rfl⟩
      refine dropped.trans ?_
      unfold State.lapse State.lapseRelease State.lapseRestart
      cases l.lapse with
      | release => exact ((State.retire_frame ..).clients.trans (State.notifyOwner_frame ..).clients).untimed
      | restart =>
        cases l.owner with
        | client c => exact ((State.retire_frame ..).clients.trans (State.restart_frame ..)).untimed
        | boot => exact (State.retire_frame ..).clients.untimed
    · exact ⟨rfl, rfl⟩

theorem State.takeWindow_untimed (h : Handle) (s : State) : Untimed s (s.takeWindow h) := by
  unfold State.takeWindow
  dsimp only
  split
  · exact ⟨rfl, rfl⟩
  · split
    · split
      · exact Untimed.trans (t := State.putLease _ _ { s with windowClaims := _ }) ⟨rfl, rfl⟩
          (State.notifyOwner_frame ..).clients.untimed
      · exact ⟨rfl, rfl⟩
    · exact ⟨rfl, rfl⟩

theorem State.takeAdoption_untimed (s : State) : Untimed s s.takeAdoption := by
  have lapses := foldl_keeps Untimed .refl .trans State.lapseBoot
    (fun t x => ((t.retire_frame x.1).clients.trans (State.notify_frame ..).clients).untimed)
  unfold State.takeAdoption
  dsimp only
  split
  · have unmarked : Untimed s { s with adoptionMark := false } := ⟨rfl, rfl⟩
    obtain ⟨rest, resetLow⟩ := unmarked.trans (lapses _ _)
    exact ⟨rest, resetLow⟩
  · exact ⟨rfl, rfl⟩

theorem State.fire_untimed (w : WatchId) (s : State) : Untimed s (s.fire w) := by
  unfold State.fire
  split
  · exact .refl s
  · next r _ =>
    split
    · exact ⟨rfl, rfl⟩
    · have created := s.create_untimed r.slot (.client r.owner) r.template (some w)
      have spent (x : Option Watch) :
          Untimed s ((s.create r.slot (.client r.owner) r.template (some w)).setWatch w x) :=
        created.trans ⟨rfl, rfl⟩
      exact (spent _).trans (State.notify_frame ..).clients.untimed

theorem State.tearDown_untimed (c : Client) (s : State) : Untimed s (s.tearDown c) :=
  ((State.setClient_frame ..).trans (State.homeLost_frame ..)).untimed

end Untimed

/-! ### What a tick leaves of Rest Control (R45, R133) -/

section Tick

/-- Nothing of Rest Control moves through the timed steps and the restart pulses; the end of the rest delay looks at the
rest conditions the tick leaves. -/
theorem State.wholeTick_rest (order : List Dom) (s : State) :
    (s.wholeTick order).rest
      = if s.rest.part = .restingPending ∧ s.rest.timer = 1 ∧ (s.wholeTick order).restConditions = true then
          { s.rest.ticked with part := .quiet, timer := 0 }
        else s.rest.ticked := by
  have steps := (s.countTick.endTimers_frame order).untimed.rest
  have pulses := (s.countTick.endTimers order).tickPulses_frame.untimed.rest
  unfold State.wholeTick
  generalize s.countTick.endTimers order = u at steps pulses ⊢
  generalize u.tickPulses = v at pulses ⊢
  have rest : v.rest = s.rest.ticked := pulses.trans steps
  have conditions : (s.endDelay v).restConditions = v.restConditions := by rw [State.endDelay_frame]; rfl
  rw [conditions]
  unfold State.endDelay
  split <;> simp only [State.enterPart_rest, rest]

theorem State.wholeTick_resetLow (order : List Dom) (s : State) : (s.wholeTick order).resetLow = s.resetLow := by
  have steps := (s.countTick.endTimers_frame order).untimed.resetLow
  have pulses := (s.countTick.endTimers order).tickPulses_frame.untimed.resetLow
  unfold State.wholeTick
  rw [State.endDelay_frame]
  exact pulses.trans steps

variable {s : State}

theorem State.running_iff :
    s.running = true ↔ s.resetLow = false ∧ (s.rest.part = .awake ∨ s.rest.part = .restingPending) := by
  simp [State.running]

theorem State.running_awake (running : s.running = true) : s.asleep = false := by
  obtain ⟨-, part | part⟩ := State.running_iff.1 running <;> simp [State.asleep, part]

/-- A tick that comes leaves Rest Control ready for the judgement. -/
theorem State.wholeTick_ready (order : List Dom) (law : TimerLaw s) (running : s.running = true) :
    Ready (s.wholeTick order) := by
  obtain ⟨idle, delay, -, divider, due⟩ := law
  obtain ⟨high, part⟩ := State.running_iff.1 running
  have rest := s.wholeTick_rest order
  split at rest
  · constructor <;> simp [rest, Rest.ticked]
  · next stays =>
    constructor
    · intro _
      rcases part with part | part <;> simp_all [Rest.ticked]
    · intro _
      rcases part with part | part
      · simp_all [Rest.ticked]
      · have one := delay part
        have ends : s.rest.timer = 1 → (s.wholeTick order).restConditions = false := by
          intro last
          simpa [part, last] using stays
        simp only [rest, Rest.ticked, part, if_true, State.wholeTick_resetLow, high, true_and]
        refine ⟨by omega, ?_⟩
        by_cases last : s.rest.timer = 1
        · exact .inr (ends last)
        · exact .inl (by omega)
    · intro _
      rcases part with part | part <;> simp_all [Rest.ticked]
    · simp [rest, Rest.ticked]
    · simp [rest, Rest.ticked]

/-- The rest conditions say what the part needs to sleep (R132). -/
theorem State.restLaw_of_conditions (conditions : s.restConditions = true) : RestLaw s := by
  intro _
  simp only [State.restConditions, State.allOff, State.claimWaits, Bool.and_eq_true, Bool.not_eq_true',
    Bool.or_eq_false_iff, List.all_eq_true, List.any_eq_false, decide_eq_true_eq, List.mem_finRange,
    true_implies] at conditions
  obtain ⟨⟨leases, off⟩, ⟨⟨⟨-, terms⟩, windows⟩, adoption⟩, marks⟩ := conditions
  refine ⟨leases, ?_, ?_, adoption, fun w => ?_, off⟩
  · simpa using terms
  · simpa using windows
  · simpa using marks w

/-- A tick puts the part to sleep only where the rest conditions hold (R133). -/
theorem State.wholeTick_restLaw (order : List Dom) (running : s.running = true) : RestLaw (s.wholeTick order) := by
  intro sleeps
  refine State.restLaw_of_conditions ?_ sleeps
  obtain ⟨-, part⟩ := State.running_iff.1 running
  have rest := s.wholeTick_rest order
  split at rest
  · next ends => exact ends.2.2
  · unfold State.asleep at sleeps
    rw [rest] at sleeps
    rcases part with part | part <;> simp [Rest.ticked, part] at sleeps

end Tick

/-! ### Events that can come while the part sleeps or RESET_N is low -/

section Inputs

/-- What the sleep of the part rests on, and the queues, are as they were. -/
structure Dozes (s t : State) : Prop where
  slots : t.slots = s.slots
  termClaims : t.termClaims = s.termClaims
  windowClaims : t.windowClaims = s.windowClaims
  adoptionMark : t.adoptionMark = s.adoptionMark
  queues : t.queues = s.queues
  marks : ∀ w, (t.watch w).map Watch.mark = (s.watch w).map Watch.mark
  states : ∀ d, (t.ctrl d).state = (s.ctrl d).state

theorem Dozes.refl (s : State) : Dozes s s := ⟨rfl, rfl, rfl, rfl, rfl, fun _ => rfl, fun _ => rfl⟩
theorem Dozes.trans {s t u : State} (h : Dozes s t) (k : Dozes t u) : Dozes s u :=
  ⟨k.slots.trans h.slots, k.termClaims.trans h.termClaims, k.windowClaims.trans h.windowClaims,
    k.adoptionMark.trans h.adoptionMark, k.queues.trans h.queues, fun w => (k.marks w).trans (h.marks w),
    fun d => (k.states d).trans (h.states d)⟩

theorem Dozes.restLaw {s t : State} (h : Dozes s t) (asleep : t.asleep = s.asleep) (law : RestLaw s) : RestLaw t := by
  intro sleeps
  obtain ⟨leases, terms, windows, adoption, marks, off⟩ := law (asleep ▸ sleeps)
  refine ⟨(State.hasLease_congr h.slots).trans leases, h.termClaims.trans terms, h.windowClaims.trans windows,
    h.adoptionMark.trans adoption, fun w => ?_, fun d => (h.states d).trans (off d)⟩
  rw [h.marks]
  exact marks w

theorem OnlyPorts.dozes {s t : State} (h : OnlyPorts s t) : Dozes s t := by
  unfold OnlyPorts at h; rw [h]; exact ⟨rfl, rfl, rfl, rfl, rfl, fun _ => rfl, fun _ => rfl⟩

variable {s : State} {d : Dom}

theorem OnlyDomains.dozes {t : State} (h : OnlyDomains s t) (queues : t.queues = s.queues)
    (states : ∀ e, (t.ctrl e).state = (s.ctrl e).state) : Dozes s t := by
  unfold OnlyDomains at h
  constructor
  case queues => exact queues
  case states => exact states
  all_goals rw [h]
  exact fun w => rfl

theorem OnlyControl.queues {t : State} (h : OnlyControl s t) : t.queues = s.queues := by
  unfold OnlyControl at h; rw [h]

theorem OnlyPulses.queues {t : State} (h : OnlyPulses s t) : t.queues = s.queues := by
  unfold OnlyPulses at h; rw [h]

theorem State.modCtrl_dozes {f : Ctrl → Ctrl} (d : Dom) (s : State)
    (h : ∀ r, (f r).state = r.state := by exact fun _ => rfl) : Dozes s (s.modCtrl d f) := by
  refine OnlyDomains.dozes (State.modCtrl_frame ..) rfl fun e => ?_
  rw [State.modCtrl_ctrl]
  split
  · next same => rw [h, same]
  · rfl

/-- What the neighbours of a domain are handed moves no domain and tells no client. -/
theorem State.handNeighbours_dozes (before : Reach) (s : State) : Dozes s (s.handNeighbours d before) := by
  have told : Dozes s (s.tellChildren d before) := by
    obtain ⟨frame, -⟩ := s.tellChildren_control d before
    refine (s.tellChildren_frame d before).dozes frame.queues fun e => ?_
    rw [State.tellChildren_ctrl]
    split <;> rfl
  have counted (t : State) : Dozes t (t.recount d) := State.modCtrl_dozes d t
  have parent (t : State) : Dozes t (t.recomputeParent d) := by
    unfold State.recomputeParent
    split
    · exact State.modCtrl_dozes _ t
    · exact .refl t
  have home (t : State) : Dozes t (t.syncHome d) := by
    refine (t.syncHome_frame d).dozes ?_ fun e => by rw [State.syncHome_ctrl]
    unfold State.syncHome
    split
    · exact (State.syncCrst_pulses ..).queues
    · rfl
  exact ((told.trans (counted _)).trans (parent _)).trans (home _)

/-- An event whose passage does nothing in OFF leaves a domain in OFF there, and tells no client. -/
theorem State.event_dozes {passage : State → State} (stays : passage s = s) (off : (s.ctrl d).state = .off) :
    Dozes s (s.event d passage) := by
  unfold State.event
  dsimp only
  rw [stays, off]
  refine Dozes.trans ?_ (State.handNeighbours_dozes ..)
  unfold State.tellGranted
  rw [off]
  exact .refl s

/-- An input of the part moves while the part sleeps or RESET_N is low: Rest Control stands, a part whose domains are
off dozes on, and a part held stays blank. -/
structure Input (s t : State) : Prop where
  untimed : Untimed s t
  dozes : (∀ d, (s.ctrl d).state = .off) → Dozes s t
  held : HeldLaw s → HeldLaw t

theorem Input.of_high {t : State} (untimed : Untimed s t) (high : s.resetLow = false)
    (dozes : (∀ d, (s.ctrl d).state = .off) → Dozes s t) : Input s t :=
  ⟨untimed, dozes, fun _ low => by rw [untimed.resetLow, high] at low; cases low⟩

theorem State.setPgood_dozes (v : Bool) (s : State) : Dozes s (s.setPgood d v) := State.modCtrl_dozes d s
theorem State.setPgood_untimed (v : Bool) (s : State) : Untimed s (s.setPgood d v) := ⟨rfl, rfl⟩

/-- While RESET_N is low a PGOOD input moves alone (R162). -/
theorem State.setPgood_heldLaw (v : Bool) (law : HeldLaw s) : HeldLaw (s.setPgood d v) := by
  intro low
  have blank := law low
  have ctrls : (s.setPgood d v).ctrls = (s.setPgood d v).blank.ctrls := by
    refine Vec.ext fun e => ?_
    have initial : s.ctrl e = Ctrl.initial e (s.ctrl e).pgood := by
      conv_lhs => rw [blank]
      exact Vec.get_ofFn ..
    change (s.setPgood d v).ctrl e = (Vec.ofFn fun e => Ctrl.initial e ((s.setPgood d v).ctrl e).pgood).get e
    rw [Vec.get_ofFn, State.setPgood, State.modCtrl_ctrl]
    split
    · next same => subst same; rw [initial]; rfl
    · exact initial
  change { s with ctrls := (s.setPgood d v).ctrls } = { s.blank with ctrls := (s.setPgood d v).blank.ctrls }
  rw [← blank, ctrls]

/-- While RESET_N is low a wake line moves alone: the latches stay clear, and no watch is held (R121, R162). -/
theorem State.moveLine_heldLaw (l : Line) (high : Bool) (law : HeldLaw s) : HeldLaw (s.moveLine l high) := by
  intro low
  change s.resetLow = true at low
  have blank := law low
  have latches : (s.moveLine l high).wake = (s.moveLine l high).blank.wake := by
    have unit : s.wake = s.blank.wake := congrArg State.wake blank
    unfold State.moveLine
    rw [if_pos low, unit]
    rfl
  have watches : (s.moveLine l high).watches = (s.moveLine l high).blank.watches := by
    have none_held : s.watches = s.blank.watches := congrArg State.watches blank
    refine Vec.ext fun w => ?_
    change (s.watches.map _).get w = (Vec.replicate 16 none).get w
    rw [none_held, Vec.get_map]
    change Option.map _ ((Vec.replicate 16 none).get w) = _
    rw [Vec.get_replicate]
    rfl
  change { s with wake := (s.moveLine l high).wake, watches := (s.moveLine l high).watches }
    = { s.blank with wake := (s.moveLine l high).blank.wake, watches := (s.moveLine l high).blank.watches }
  rw [← blank, latches, watches]

theorem State.driveMiso_heldLaw (c : Client) (bytes : List Byte) (law : HeldLaw s) : HeldLaw (s.driveMiso c bytes) := by
  intro low
  have blank := law low
  change { s with miso := s.miso.set c bytes } = { s.blank with miso := s.miso.set c bytes }
  rw [← blank]

theorem State.begin_heldLaw (law : HeldLaw s) : HeldLaw s.begin := by
  intro low
  have blank := law low
  change { s with changes := [] } = { s.blank with changes := [] }
  rw [← blank]

end Inputs

/-! ### The steps -/

section Steps

variable {c : Instr} {s t : State}

/-- What a command can do to Rest Control: nothing; leave it to the judgement, by the engine or the controllers of a
part that runs, or by an input at any time; a tick; a sample; the end of WAKING; or a step of RESET_N. -/
inductive Paced (c : Instr) (s : State) : State → Prop
  | idle : Paced c s s
  | working {u : State} (running : s.running = true) (untimed : Untimed s.begin u) : Paced c s u.judgeRest
  | input {u : State} (input : Input s.begin u) : Paced c s u.judgeRest
  | ticked (order : List Dom) (running : s.running = true) : Paced c s (s.begin.wholeTick order).judgeRest
  | sampled {u : State} (running : s.running = true) (owes : s.rest.due ≠ .tick) (rest : u.rest = s.rest.counted)
      (resetLow : u.resetLow = s.resetLow) : Paced c s u.judgeRest
  | awoken (high : s.resetLow = false) : Paced c s s.begin.awaken.judgeRest
  | reset (command : c = .resetAssert) : Paced c s s.begin.dropAll.blank.judgeRest
  | start {plan1 plan0 : Bool} (command : c = .partStart plan1 plan0) :
      Paced c s (State.start (planOf plan1 plan0) s.begin).judgeRest

theorem occur_paced {can : Bool} {event : State → State} (h : can = true → Paced c s (event s.begin).judgeRest)
    (e : s.occur can event = .next t) : Paced c s t := by
  unfold State.occur at e
  split at e
  · next hc => cases e; exact h hc
  · cases e; exact .idle

theorem claim_paced {can : Bool} {take : State → State} (h : Untimed s.begin (take s.begin))
    (e : s.claim can take = .next t) : Paced c s t :=
  occur_paced (fun able => .working (Bool.and_eq_true_iff.1 able).1 (h.trans (State.handOn_untimed _))) e

theorem take_paced (k : ReqKind) (e : exec (commandOf k) s = .next t) : Paced c s t := by
  rw [exec_commandOf] at e
  unfold State.take at e
  split at e
  · next p r _ =>
    refine occur_paced (fun able => ?_) e
    obtain ⟨running, kind⟩ := Bool.and_eq_true_iff.1 able
    obtain rfl : r.kind = k := of_decide_eq_true kind
    exact .working running ((State.served_untimed s.begin p r).trans (State.handOn_untimed _))
  · cases e; exact .idle

theorem tick_paced {can : Bool} {order : List Dom} (due : can = true → s.tickDue = true)
    (e : s.occur can (State.wholeTick order) = .next t) : Paced c s t :=
  occur_paced (fun able => .ticked order (Bool.and_eq_true_iff.1 (due able)).1) e

theorem timerEnd_paced {d : Dom} {able : Bool} {order : List Dom}
    (e : s.occur (s.timerEnds d && able) (State.wholeTick order) = .next t) : Paced c s t :=
  tick_paced (fun h => (Bool.and_eq_true_iff.1 (Bool.and_eq_true_iff.1 h).1).1) e

theorem execLineSample_paced (e : execLineSample s = .next t) : Paced c s t := by
  unfold execLineSample at e
  refine occur_paced (fun able => ?_) e
  obtain ⟨running, owes⟩ := Bool.and_eq_true_iff.1 able
  exact .sampled running (of_decide_eq_true owes) rfl rfl

theorem execWakingEnd_paced (e : execWakingEnd s = .next t) : Paced c s t := by
  unfold execWakingEnd at e
  exact occur_paced (fun able => .awoken (by simpa using (Bool.and_eq_true_iff.1 able).1)) e

theorem execWakeLineChange_paced {l : Line} {high : Bool} (e : execWakeLineChange l high s = .next t) :
    Paced c s t := by
  unfold execWakeLineChange at e
  refine occur_paced (fun _ => .input ⟨⟨rfl, rfl⟩, fun _ => ?_, State.moveLine_heldLaw l high⟩) e
  refine ⟨rfl, rfl, rfl, rfl, rfl, fun w => ?_, fun _ => rfl⟩
  simp only [State.moveLine, State.watch, Vec.get_map]
  cases s.begin.watches.get w <;> rfl

theorem execDemandChange_paced {d : Dom} (e : execDemandChange d s = .next t) : Paced c s t := by
  unfold execDemandChange at e
  refine occur_paced (fun able => .working (Bool.and_eq_true_iff.1 able).1 ?_) e
  exact ((State.modCtrl_frame ..).trans (State.event_frame _ _ (State.demandStep_frame d) _)).untimed

theorem State.parentStep_frame (d : Dom) (s : State) : OnlyDomains s (s.parentStep d) := by
  unfold State.parentStep
  split
  · exact State.heldCompare_frame ..
  · rfl

theorem State.pgoodStep_frame (d : Dom) (s : State) : OnlyDomains s (s.pgoodStep d) := by
  unfold State.pgoodStep
  split
  · exact State.endPowering_frame ..
  · rfl

theorem State.lossStep_frame (d : Dom) (s : State) : OnlyDomains s (s.lossStep d) := by
  unfold State.lossStep
  split
  · exact State.toFault_frame ..
  · rfl

/-- A controller event of a domain that starts from what dozes is an input, where its passage does nothing in OFF. -/
theorem State.event_input {u : State} {d : Dom} {passage : State → State} (before : Untimed s u)
    (high : s.resetLow = false) (dozes : Dozes s u) (frame : ∀ v, OnlyDomains v (passage v))
    (off : (u.ctrl d).state = .off → passage u = u) : Input s (u.event d passage) := by
  refine .of_high (before.trans (State.event_frame d _ frame u).untimed) high fun all => dozes.trans ?_
  have here : (u.ctrl d).state = .off := (dozes.states d).trans (all d)
  exact State.event_dozes (off here) here

theorem execParentChange_paced {d : Dom} (e : execParentChange d s = .next t) : Paced c s t := by
  unfold execParentChange at e
  refine occur_paced (fun able => .input ?_) e
  have high : s.resetLow = false := by simpa using (Bool.and_eq_true_iff.1 able).1
  refine State.event_input (State.modCtrl_frame ..).untimed high (State.modCtrl_dozes ..) (State.parentStep_frame d)
    fun off => ?_
  simp [State.parentStep, off]

theorem execPgoodPresent_paced {d : Dom} (e : execPgoodPresent d s = .next t) : Paced c s t := by
  unfold execPgoodPresent at e
  refine occur_paced (fun _ => .input ?_) e
  dsimp only
  split
  · exact ⟨State.setPgood_untimed .., fun _ => State.setPgood_dozes .., State.setPgood_heldLaw true⟩
  · next high =>
    refine State.event_input (State.setPgood_untimed ..) (Bool.eq_false_iff.2 high) (State.setPgood_dozes ..)
      (State.pgoodStep_frame d) fun off => ?_
    simp [State.pgoodStep, off]

theorem execPgoodLoss_paced {fall : PgoodFall} (e : execPgoodLoss fall s = .next t) : Paced c s t := by
  unfold execPgoodLoss at e
  refine occur_paced (fun _ => .input ?_) e
  have level := s.begin.setPgood_dozes (d := fall.domain) false
  have marked (v : Bool) : Dozes s.begin ((s.begin.setPgood fall.domain false).setLoss fall.domain v) :=
    level.trans (State.modCtrl_dozes ..)
  dsimp only
  split
  · exact ⟨State.setPgood_untimed .., fun _ => level, State.setPgood_heldLaw false⟩
  · next high =>
    have high : s.begin.resetLow = false := Bool.eq_false_iff.2 high
    split
    · exact .of_high ⟨rfl, rfl⟩ high fun _ => marked true
    · refine State.event_input ⟨rfl, rfl⟩ high (marked false) (State.lossStep_frame _) fun off => ?_
      simp [State.lossStep, lossFaults, off]

/-- A transaction moves ports and MISO; while RESET_N is low it moves MISO alone (R169). -/
theorem ports_input {u : State} (frame : OnlyPorts s u) (low : s.resetLow = true → ∃ o bytes, u = s.driveMiso o bytes) :
    Input s u := by
  refine ⟨frame.untimed, fun _ => frame.dozes, fun law held => ?_⟩
  rw [frame.untimed.resetLow] at held
  obtain ⟨o, bytes, rfl⟩ := low held
  exact State.driveMiso_heldLaw o bytes law held

theorem serves_high {u : State} {cut : Bool} (serves : u.serves cut = true) : u.resetLow = false := by
  simpa using (Bool.and_eq_true_iff.1 serves).1

theorem execSend_paced {o : Client} {cut : Bool} {bytes : List Byte} (e : execSend o cut bytes s = .next t) :
    Paced c s t := by
  unfold execSend at e
  refine occur_paced (fun _ => .input ?_) e
  dsimp only
  split
  · next serves =>
    refine ports_input ((State.driveMiso_frame ..).trans (State.receive_frame ..)) fun low => ?_
    exact absurd (low.symm.trans (serves_high serves)) (by decide)
  · exact ports_input (State.driveMiso_frame ..) fun _ => ⟨o, _, rfl⟩

theorem execCollect_paced {o : Client} {cut : Option Nat} {n : Nat} (e : execCollect o cut n s = .next t) :
    Paced c s t := by
  unfold execCollect at e
  refine occur_paced (fun _ => .input ?_) e
  dsimp only
  split
  · exact ports_input (State.driveMiso_frame ..) fun _ => ⟨o, _, rfl⟩
  · next high =>
    exact ports_input ((State.driveMiso_frame ..).trans (State.afterCollect_frame ..)) fun low => absurd low high

theorem execIgnoredTransaction_paced {o : Client} {cut : Bool} {bytes : List Byte}
    (e : execIgnoredTransaction o cut bytes s = .next t) : Paced c s t := by
  unfold execIgnoredTransaction at e
  refine occur_paced (fun _ => .input ?_) e
  dsimp only
  split
  · next serves =>
    refine ports_input ((State.driveMiso_frame ..).trans (State.setPort_frame ..)) fun low => ?_
    exact absurd (low.symm.trans (serves_high serves)) (by decide)
  · exact ports_input (State.driveMiso_frame ..) fun _ => ⟨o, _, rfl⟩

theorem execResetAssert_paced (e : execResetAssert s = .next t) : Paced .resetAssert s t := by
  unfold execResetAssert at e
  refine occur_paced (fun _ => ?_) e
  exact .reset rfl

theorem execPartStart_paced {plan1 plan0 : Bool} (e : execPartStart plan1 plan0 s = .next t) :
    Paced (.partStart plan1 plan0) s t := by
  unfold execPartStart at e
  refine occur_paced (fun _ => ?_) e
  exact .start rfl

/-- Every command does one of the things of `Paced`. -/
theorem exec_paced (c : Instr) (e : exec c s = .next t) : Paced c s t := by
  cases c with
  | leaseTake => exact take_paced .leaseTake e
  | leaseRenew => exact take_paced .leaseRenew e
  | leaseAlter => exact take_paced .leaseAlter e
  | leaseRelease => exact take_paced .leaseRelease e
  | leaseRead => exact take_paced .leaseRead e
  | leaseList => exact take_paced .leaseList e
  | leaseRevoke => exact take_paced .leaseRevoke e
  | leaseOffer => exact take_paced .leaseOffer e
  | leaseWithdraw => exact take_paced .leaseWithdraw e
  | leaseAccept => exact take_paced .leaseAccept e
  | leaseAdopt => exact take_paced .leaseAdopt e
  | watchSet => exact take_paced .watchSet e
  | watchDrop => exact take_paced .watchDrop e
  | watchRead => exact take_paced .watchRead e
  | linesRead => exact take_paced .linesRead e
  | domainRead => exact take_paced .domainRead e
  | domainSetup => exact take_paced .domainSetup e
  | domainDivide => exact take_paced .domainDivide e
  | domainClear => exact take_paced .domainClear e
  | clientStatus => exact take_paced .clientStatus e
  | clientClearCause => exact take_paced .clientClearCause e
  | clientQuota => exact take_paced .clientQuota e
  | clientRestart => exact take_paced .clientRestart e
  | superPass => exact take_paced .superPass e
  | noticeFetch => exact take_paced .noticeFetch e
  | partIdent => exact take_paced .partIdent e
  | tick => exact tick_paced id e
  | remainingReachesZero | offerWindowRunsOut | adoptionWindowRunsOut | restartPulseEnd =>
    exact tick_paced (fun h => (Bool.and_eq_true_iff.1 h).1) e
  | restDelayEnd => exact tick_paced (fun h => (Bool.and_eq_true_iff.1 (Bool.and_eq_true_iff.1 h).1).1) e
  | rampEnd => exact tick_paced (fun h => by simp_all [State.timerEnds]) e
  | settleEnd | lingerEnd | dischargeEnd => exact timerEnd_paced e
  | leaseTermExpiry h => exact claim_paced (State.takeTerm_untimed h _) e
  | offerWindowExpiry h => exact claim_paced (State.takeWindow_untimed h _) e
  | adoptionWindowExpiry => exact claim_paced (State.takeAdoption_untimed _) e
  | firing w => exact claim_paced (State.fire_untimed w _) e
  | lineSample => exact execLineSample_paced e
  | wakeLineChange => exact execWakeLineChange_paced e
  | wakingEnd => exact execWakingEnd_paced e
  | demandChange => exact execDemandChange_paced e
  | parentChange => exact execParentChange_paced e
  | pgoodPresent => exact execPgoodPresent_paced e
  | pgoodLoss => exact execPgoodLoss_paced e
  | homeLostTeardown c =>
    exact occur_paced (fun able => .working (Bool.and_eq_true_iff.1 able).1 (State.tearDown_untimed c _)) e
  | send => exact execSend_paced e
  | collect => exact execCollect_paced e
  | ignoredTransaction => exact execIgnoredTransaction_paced e
  | resetAssert => exact execResetAssert_paced e
  | partStart => exact execPartStart_paced e

end Steps

/-! ### The laws of the rest -/

section Laws

variable {c : Instr} {s t u : State}

/-- What the rest keeps: the sleep, the judgement, the timers and the part held (R45, R132 to R137, R162). -/
structure Rested (s : State) : Prop where
  asleep : RestLaw s
  judged : JudgedLaw s
  timers : TimerLaw s
  held : HeldLaw s

/-- An awake part has no sleep to keep. -/
theorem restLaw_of_awake (awake : u.asleep = false) : RestLaw u := fun sleeps => by rw [awake] at sleeps; cases sleeps

theorem heldLaw_of_high (high : u.resetLow = false) : HeldLaw u := fun low => by rw [high] at low; cases low

/-- The judgement closes an event that keeps the sleep, the part held and its ranges. -/
theorem Rested.judge (asleep : RestLaw u) (ready : Ready u) (held : HeldLaw u) : Rested u.judgeRest :=
  ⟨State.judgeRest_restLaw asleep, u.judgeRest_judgedLaw, ready.judged, State.judgeRest_heldLaw held⟩

theorem Untimed.asleep (h : Untimed s u) : u.asleep = s.asleep := by unfold State.asleep; rw [h.rest]

/-- A sample counts a TREF period (R45, R120). -/
theorem Rest.counted_ready (law : TimerLaw s) (owes : s.rest.due ≠ .tick) (rest : u.rest = s.rest.counted) :
    Ready u := by
  obtain ⟨idle, delay, waking, divider, due⟩ := law
  have counted : u.rest.part = s.rest.part ∧ u.rest.timer = s.rest.timer ∧ u.rest.divider ≤ 31
      ∧ (u.rest.due ≠ .none → u.rest.divider = 0) := by
    rw [rest]
    unfold Rest.counted
    split
    · exact ⟨rfl, rfl, divider, fun h => absurd rfl h⟩
    · next not_sample =>
      split
      · refine ⟨rfl, rfl, ?_, fun h => ?_⟩
        · dsimp only; omega
        · cases owed : s.rest.due <;> simp_all
      · exact ⟨rfl, rfl, Nat.zero_le _, fun _ => rfl⟩
  obtain ⟨part, timer, range, owed⟩ := counted
  constructor
  · rw [part, timer]; exact idle
  · rw [part, timer]; exact fun h => ⟨(delay h).2, .inl (delay h).1⟩
  · rw [part, timer]; exact waking
  · exact range
  · exact owed

theorem State.begin_rested (law : Rested s) : Rested s.begin :=
  ⟨law.asleep, law.judged, law.timers, State.begin_heldLaw law.held⟩

/-- A blank part is blank already (R162). -/
theorem State.blank_blank (s : State) : s.blank.blank = s.blank := by
  have ctrls : s.blank.blank.ctrls = s.blank.ctrls := Vec.ext fun d => by
    change (Vec.ofFn fun e => Ctrl.initial e ((Vec.ofFn fun e => Ctrl.initial e (s.ctrl e).pgood).get e).pgood).get d
      = (Vec.ofFn fun e => Ctrl.initial e (s.ctrl e).pgood).get d
    simp only [Vec.get_ofFn]
    rfl
  change { s.blank with ctrls := s.blank.blank.ctrls } = s.blank
  rw [ctrls]

/-- The end of WAKING and part start leave the part awake with its timers at 0. -/
theorem Ready.of_awake (rest : u.rest = { part := .awake, timer := 0, divider := 0, due := .none }) : Ready u := by
  constructor <;> simp [rest]

theorem Paced.rested (h : Paced c s t) (law : Rested s) : Rested t := by
  cases h with
  | idle => exact law
  | working running untimed =>
    obtain ⟨high, -⟩ := State.running_iff.1 running
    refine .judge (restLaw_of_awake ?_) (TimerLaw.ready law.timers untimed.rest) (heldLaw_of_high ?_)
    · rw [untimed.asleep]; exact State.running_awake running
    · rw [untimed.resetLow]; exact high
  | @input u input =>
    have begun := State.begin_rested law
    refine .judge (fun sleeps => ?_) (TimerLaw.ready law.timers input.untimed.rest) (input.held begun.held)
    have before : s.begin.asleep = true := input.untimed.asleep ▸ sleeps
    obtain ⟨-, -, -, -, -, off⟩ := begun.asleep before
    exact (input.dozes off).restLaw input.untimed.asleep begun.asleep sleeps
  | ticked order running =>
    refine .judge (State.wholeTick_restLaw order running) (State.wholeTick_ready order law.timers running)
      (heldLaw_of_high ?_)
    rw [State.wholeTick_resetLow]
    exact (State.running_iff.1 running).1
  | @sampled u running owes rest resetLow =>
    obtain ⟨high, part⟩ := State.running_iff.1 running
    refine .judge (restLaw_of_awake ?_) (Rest.counted_ready law.timers owes rest)
        (heldLaw_of_high (resetLow.trans high))
    have same : u.rest.part = s.rest.part := by rw [rest]; unfold Rest.counted; split <;> (try split) <;> rfl
    unfold State.asleep
    rw [same]
    rcases part with part | part <;> simp [part]
  | awoken high => exact .judge (restLaw_of_awake rfl) (.of_awake rfl) (heldLaw_of_high high)
  | reset =>
    exact .judge (restLaw_of_awake rfl) (.of_awake rfl) fun _ => (State.blank_blank _).symm
  | @start plan1 plan0 =>
    have frame := State.start_frame (planOf plan1 plan0) s.begin rfl
    generalize State.start (planOf plan1 plan0) s.begin = u at frame ⊢
    refine .judge (restLaw_of_awake ?_) (.of_awake ?_) (heldLaw_of_high ?_) <;> rw [frame] <;> rfl

/-- While the part sleeps no command but those of RESET_N reaches a queue (R136, R153). -/
theorem Paced.queues (h : Paced c s t) (law : RestLaw s) (sleeps : s.asleep = true) (reset : c ≠ .resetAssert)
    (start : ∀ a b, c ≠ .partStart a b) : t.queues = s.queues := by
  have works : s.running ≠ true := fun running => by rw [State.running_awake running] at sleeps; cases sleeps
  cases h with
  | idle => rfl
  | working running | ticked _ running | sampled running => exact absurd running works
  | input input =>
    obtain ⟨-, -, -, -, -, off⟩ := law sleeps
    rw [State.judgeRest_frame]
    exact (input.dozes off).queues
  | awoken => rw [State.judgeRest_frame]; rfl
  | reset command => exact absurd command reset
  | start command => exact absurd command (start _ _)

end Laws

/-- Settles O59: what a step does to Rest Control (`Paced`) keeps the laws of the rest, and moves no queue of a part
that sleeps. -/
theorem stepsKeepTheRest : Obligations.StepsKeepTheRest := by
  constructor
  · intro s t asleep judged timers held e
    rcases step_exec e with rfl | ⟨c, rest, e⟩
    · exact ⟨asleep, judged, timers, held⟩
    · have queued : HeldLaw { s with pending := rest } := fun low => by
        change { s with pending := rest } = { s.blank with pending := rest }
        rw [← held low]
      obtain ⟨asleep, judged, timers, held⟩ := (exec_paced c e).rested ⟨asleep, judged, timers, queued⟩
      exact ⟨asleep, judged, timers, held⟩
  · intro s t c law sleeps reset start e
    exact (exec_paced c e).queues law sleeps reset start

end Sys2Proof.Machine

/-! ## The tick: what it counts -/

namespace Sys2Proof.Machine

open Sys2Proof.Statement

/-! ### The counts and the claims they raise (R45, R47, R49, R60, R165) -/

section Counts

variable {s t : State}

theorem State.tickDue_iff : s.tickDue = true ↔ TickComes s := by
  unfold State.tickDue Rest.tickDue TickComes
  rw [Bool.and_eq_true, decide_eq_true_eq]

theorem Lease.termEnds_iff {l : Lease} : l.termEnds = true ↔ TermEnds l := by
  unfold Lease.termEnds TermEnds
  rw [Bool.and_eq_true, decide_eq_true_eq, Bool.not_eq_true', and_assoc]

theorem Lease.windowEnds_iff {l : Lease} : l.windowEnds = true ↔ WindowEnds l := by
  unfold Lease.windowEnds WindowEnds
  rw [Bool.and_eq_true, decide_eq_true_eq, Bool.not_eq_true']

theorem Lease.ticked_lowered (l : Lease) : l.ticked = loweredLease l := by
  have term : l.termEnds = decide (TermEnds l) := by rw [Bool.eq_iff_iff, decide_eq_true_eq, Lease.termEnds_iff]
  have window : l.windowEnds = decide (WindowEnds l) := by
    rw [Bool.eq_iff_iff, decide_eq_true_eq, Lease.windowEnds_iff]
  unfold Lease.ticked loweredLease
  rw [term, window]

theorem State.hasBoot_iff : s.hasBoot = true ↔ ∃ i l, s.leaseAt i = some l ∧ l.owner = .boot := by
  simp only [State.hasBoot, List.any_eq_true, decide_eq_true_eq, Prod.exists, State.mem_leasesBySlot]

theorem State.countTick_lease {i : SlotNo} {l : Lease} (at_ : s.leaseAt i = some l) :
    s.countTick.slot i = { gen := (s.slot i).gen, cond := .lease (loweredLease l) } := by
  rw [State.countTick_slot, SlotRec.ticked, State.leaseAt_iff.1 at_]
  dsimp only
  rw [Lease.ticked_lowered]

theorem State.countTick_vacant {i : SlotNo} (vacant : s.leaseAt i = none) : s.countTick.slot i = s.slot i := by
  rw [State.countTick_slot]
  unfold State.leaseAt at vacant
  unfold SlotRec.ticked
  split <;> simp_all

/-- A tick lowers every count above 0 and raises the claims of those that end. -/
theorem State.countTick_lowered (s : State) : Lowered s s.begin.countTick := by
  refine ⟨fun i l at_ => State.countTick_lease (s := s.begin) at_,
    fun i vacant => State.countTick_vacant (s := s.begin) vacant, fun h => ?_, fun h => ?_, rfl, ?_,
    fun d => State.countTick_ctrl .., rfl⟩
  · rw [← exists_congr fun i => exists_congr fun l => and_congr_right' (and_congr_left' Lease.termEnds_iff)]
    exact mem_joinClaims.trans (or_congr_right (State.mem_handlesOf s))
  · rw [← exists_congr fun i => exists_congr fun l => and_congr_right' (and_congr_left' Lease.windowEnds_iff)]
    exact mem_joinClaims.trans (or_congr_right (State.mem_handlesOf s))
  · rw [← State.hasBoot_iff]
    change (s.adoptionMark || s.adoptionEnds) = true ↔ _
    unfold State.adoptionEnds
    cases s.adoptionMark <;> simp

/-- The tables that a tick leaves are those of its counts. -/
theorem State.tick_tables (s : State) :
    s.tick.judgeRest.slots = s.countTick.slots ∧ s.tick.judgeRest.termClaims = s.countTick.termClaims
    ∧ s.tick.judgeRest.windowClaims = s.countTick.windowClaims ∧ s.tick.judgeRest.adoption = s.countTick.adoption
    ∧ s.tick.judgeRest.adoptionMark = s.countTick.adoptionMark := by
  rw [State.judgeRest_frame]
  exact s.wholeTick_slots (List.finRange 8)

theorem exec_tick (comes : TickComes s) : exec .tick s = .next s.begin.tick.judgeRest :=
  State.occur_of (State.tickDue_iff.2 comes) _ _

/-- The second name of a tick, where what it names ends. -/
theorem occur_tick {ends : Bool} (comes : TickComes s) (ends_ : ends = true) :
    s.occur (s.tickDue && ends) State.tick = exec .tick s := by
  rw [exec_tick comes]
  exact State.occur_of (by rw [State.tickDue_iff.2 comes, ends_]; rfl) _ _

end Counts

/-- Settles O14: each name stands for the tick, whose counts raise the claim. -/
theorem runOutCountsRaiseTheirClaims : Obligations.RunOutCountsRaiseTheirClaims := by
  refine ⟨fun s i l c comes at_ owner last unmarked => ?_, fun s i l o comes at_ offer last unmarked => ?_,
    fun s i l comes last unmarked at_ owner => ?_⟩
  all_goals
    obtain ⟨slots, terms, windows, adoption, mark⟩ := s.begin.tick_tables
    obtain ⟨lowered, -, raises, opens, counts, adopts, -, -⟩ := s.countTick_lowered
  · have ends : TermEnds l := ⟨by rw [owner]; exact nofun, last, unmarked⟩
    have named : exec (.remainingReachesZero i) s = exec .tick s :=
      occur_tick comes (by rw [at_]; exact Lease.termEnds_iff.2 ends)
    refine ⟨named, _, named.trans (exec_tick comes), ?_, ?_⟩
    · rw [State.slot, slots]
      refine (lowered i l at_).trans ?_
      simp [loweredLease, last, ends]
    · rw [terms, raises]
      exact .inr ⟨i, l, at_, ends, rfl⟩
  · have ends : WindowEnds l := ⟨by rw [offer, Option.map_some, last], unmarked⟩
    have named : exec (.offerWindowRunsOut i) s = exec .tick s :=
      occur_tick comes (by rw [at_]; exact Lease.windowEnds_iff.2 ends)
    refine ⟨named, _, named.trans (exec_tick comes), ?_, ?_⟩
    · rw [State.slot, slots]
      refine (lowered i l at_).trans ?_
      simp [loweredLease, offer, last, ends]
    · rw [windows, opens]
      exact .inr ⟨i, l, at_, ends, rfl⟩
  · have boot : s.hasBoot = true := State.hasBoot_iff.2 ⟨i, l, at_, owner⟩
    have named : exec .adoptionWindowRunsOut s = exec .tick s :=
      occur_tick comes (by simp [State.adoptionEnds, last, boot, unmarked])
    refine ⟨named, _, named.trans (exec_tick comes), ?_, ?_⟩
    · rw [adoption, counts, last]
      rfl
    · rw [mark, adopts]
      exact .inr ⟨last, i, l, at_, owner⟩

end Sys2Proof.Machine

/-! ## A claim of the engine taken -/

namespace Sys2Proof.Machine

open Sys2Proof.Statement

variable {s t u : State}

/-! ### The end of the take -/

/-- What the take of a claim comes to, whose own changes leave `u`: what is handed on, and the judgement of Rest
Control, beside those changes. -/
structure ClaimTaken (s u t : State) : Prop where
  handed : OnlyHanded s t
  frame : t = { u with ctrls := t.ctrls, rest := t.rest }
  judged : RestJudged s t

/-- A claim that waits, whose take moves no controller and not Rest Control itself. -/
theorem claim_taken {can : Bool} {take : State → State} (running : s.running = true) (waits : can = true)
    (untimed : Untimed s.begin (take s.begin)) (ctrls : (take s.begin).ctrls = s.ctrls) :
    ∃ t, s.claim can take = .next t ∧ ClaimTaken s (take s.begin) t := by
  refine ⟨_, State.claim_of running waits take, ?_⟩
  generalize take s.begin = u at untimed ctrls ⊢
  constructor
  · refine OnlyHanded.congr u.handOn_onlyHanded ctrls.symm ?_ (State.judgeRest_aside _).slots
    rw [State.judgeRest_frame]
  · rw [State.judgeRest_frame, State.handOn_frame]
  · exact (State.judgeRest_rest _).trans
      (congrArg (fun r => judgedRest r _) ((State.handOn_untimed u).rest.trans untimed.rest))

theorem ClaimTaken.slots (h : ClaimTaken s u t) : t.slots = u.slots := by rw [h.frame]
theorem ClaimTaken.slot (h : ClaimTaken s u t) (i : SlotNo) : t.slot i = u.slot i := by simp only [State.slot, h.slots]
theorem ClaimTaken.watch (h : ClaimTaken s u t) (w : WatchId) : t.watch w = u.watch w := by rw [h.frame]; rfl
theorem ClaimTaken.client (h : ClaimTaken s u t) (c : Client) : t.client c = u.client c := by rw [h.frame]; rfl
theorem ClaimTaken.queue (h : ClaimTaken s u t) (c : Client) : t.queue c = u.queue c := by rw [h.frame]; rfl
theorem ClaimTaken.port (h : ClaimTaken s u t) (c : Client) : t.port c = u.port c := by rw [h.frame]; rfl
theorem ClaimTaken.changes (h : ClaimTaken s u t) : t.changes = u.changes := by rw [h.frame]

/-- A take that moves no demand hands nothing on. -/
theorem ClaimTaken.ctrls (h : ClaimTaken s u t) (demand : DemandLaw s)
    (stand : ∀ d, u.tableDemand d = s.tableDemand d) :
    t.ctrls = s.ctrls :=
  OnlyHanded.same h.handed fun d => ((State.tableDemand_congr h.slots d).trans (stand d)).trans (demand d).symm

/-! ### Lease terms (R50, R51) -/

variable {h : Handle} {l : Lease} {c : Client}

/-- A lease-term expiry claim gone from those that wait. -/
def State.dropTerm (h : Handle) (s : State) : State := { s with termClaims := s.termClaims.erase h }

theorem State.takeTerm_lapses (named : Names s h l) (timed : l.term ≠ 0) (ended : l.remaining = some 0) :
    s.takeTerm h = (s.dropTerm h).lapse h l := by
  have named : (s.dropTerm h).named h = some l := State.named_slot named
  unfold State.takeTerm
  dsimp only
  rw [show State.named { s with termClaims := s.termClaims.erase h } h = some l from named]
  exact if_pos ⟨timed, ended⟩

theorem State.takeTerm_discards (named : Names s h l) (stands : l.term = 0 ∨ l.remaining ≠ some 0) :
    s.takeTerm h = (s.dropTerm h).putLease h.slot { l with expiryMark := false } := by
  have named : (s.dropTerm h).named h = some l := State.named_slot named
  unfold State.takeTerm
  dsimp only
  rw [show State.named { s with termClaims := s.termClaims.erase h } h = some l from named]
  exact if_neg fun lapses => stands.elim lapses.1 (fun more => more lapses.2)

theorem State.takeTerm_stale (stale : s.named h = none) : s.takeTerm h = s.dropTerm h := by
  have stale : (s.dropTerm h).named h = none := stale
  unfold State.takeTerm
  dsimp only
  rw [show State.named { s with termClaims := s.termClaims.erase h } h = none from stale]
  rfl

/-- The claim of a handle that waits is taken: what `takeTerm` does, then the end of the take. -/
theorem exec_leaseTermExpiry (running : s.running = true) (waits : h ∈ s.termClaims)
    (ctrls : (s.begin.takeTerm h).ctrls = s.ctrls) :
    ∃ t, exec (.leaseTermExpiry h) s = .next t ∧ ClaimTaken s (s.begin.takeTerm h) t :=
  claim_taken running (decide_eq_true waits) (State.takeTerm_untimed h _) ctrls

/-- A lease lapsed with action RELEASE: retired, and its owner told (R51). -/
theorem expiry_releases (running : s.running = true) (waits : h ∈ s.termClaims) (named : Names s h l)
    (owner : l.owner = .client c) (timed : l.term ≠ 0) (ended : l.remaining = some 0) (action : l.lapse = .release) :
    ∃ t, exec (.leaseTermExpiry h) s = .next t
      ∧ ClaimTaken s (((s.begin.dropTerm h).retire h.slot).notify c .lapsed (.lease h)
          (.level l.domain l.level)) t := by
  have lapses : s.begin.takeTerm h
      = ((s.begin.dropTerm h).retire h.slot).notify c .lapsed (.lease h) (.level l.domain l.level) := by
    rw [State.takeTerm_lapses (s := s.begin) named timed ended]
    unfold State.lapse State.lapseRelease
    rw [action, owner]
    rfl
  rw [← lapses]
  refine exec_leaseTermExpiry running waits ?_
  rw [lapses, State.notify_frame, State.retire_frame]
  rfl

/-- Settles O15: the take lapses a lease whose term has run out, clears the mark of any other, and does no more for a
handle that is stale. -/
theorem expiryLapsesOrIsDiscarded : Obligations.ExpiryLapsesOrIsDiscarded := by
  refine ⟨fun s h l c running waits named owner timed ended action => ?_,
    fun s h l running waits named stands demand => ?_, fun s h running waits stale demand => ?_⟩
  · obtain ⟨t, exec_eq, taken⟩ := expiry_releases running waits named owner timed ended action
    have retired := (s.begin.dropTerm h).retire_frame h.slot
    have told := ((s.begin.dropTerm h).retire h.slot).notify_frame c .lapsed (.lease h) (.level l.domain l.level)
    have before : ∀ o, ((s.begin.dropTerm h).retire h.slot).queue o = s.queue o := fun o => by rw [retired]; rfl
    obtain ⟨slot, others, watches⟩ := retire_tornDown (s := s.begin.dropTerm h) (t := t) named
      (fun i => by rw [taken.slot, told]; rfl) (fun w => by rw [taken.watch, told]; rfl)
    have changes : t.changes = attnChange s t c := by
      have none_yet : ((s.begin.dropTerm h).retire h.slot).changes = [] := by rw [retired]; rfl
      rw [taken.changes, State.notify_changes, none_yet, List.nil_append]
      unfold attnChange
      rw [taken.queue, before]
    have frame : t = { s with
        slots := t.slots, watches := t.watches, queues := t.queues, termClaims := t.termClaims
        ctrls := t.ctrls, rest := t.rest, changes := t.changes } := by
      have frame := taken.frame
      rw [told, retired] at frame
      rw [frame]
      rfl
    have claims : t.termClaims = s.termClaims.erase h := by
      rw [taken.frame, told, retired]
      rfl
    rw [changes] at frame
    refine ⟨t, exec_eq, slot, others, watches, ?_, fun o other => ?_, claims, taken.handed, frame, taken.judged⟩
    · rw [taken.queue]
      exact State.notify_queue_congr before
    · rw [taken.queue, State.notify_queue_ne other, before]
  · have discards := State.takeTerm_discards (s := s.begin) named stands
    obtain ⟨t, exec_eq, taken⟩ := exec_leaseTermExpiry running waits (by rw [discards]; rfl)
    rw [discards] at taken
    obtain ⟨slot, others⟩ := putLease_slots (s := s.begin.dropTerm h) named taken.slot
    have asks : AsksSame (s.begin.dropTerm h) ((s.begin.dropTerm h).putLease h.slot { l with expiryMark := false }) :=
      State.putLease_asks (State.named_leaseAt (State.named_slot (s := s) named)) rfl
    have ctrls := taken.ctrls demand fun d => asks.tableDemand d
    refine ⟨t, exec_eq, slot, others, by rw [taken.frame]; rfl, ?_, taken.judged⟩
    have frame := taken.frame
    rw [ctrls] at frame
    rw [frame]
    rfl
  · have drops := State.takeTerm_stale (s := s.begin) stale
    obtain ⟨t, exec_eq, taken⟩ := exec_leaseTermExpiry running waits (by rw [drops]; rfl)
    rw [drops] at taken
    have ctrls := taken.ctrls demand fun d => rfl
    refine ⟨t, exec_eq, ?_, taken.judged⟩
    have frame := taken.frame
    rw [ctrls] at frame
    exact frame

end Sys2Proof.Machine

/-! ## The restart of a client -/

namespace Sys2Proof.Machine

open Sys2Proof.Statement

/-! ### Leases retired together -/

section Cleared

variable {s t u : State} {gone gone' : SlotNo → Lease → Bool}

/-- The leases that `gone` names are retired, and nothing else of the table moves (R2, R4, R128). -/
structure Cleared (gone : SlotNo → Lease → Bool) (s t : State) : Prop where
  lease : ∀ i l, s.leaseAt i = some l → t.slot i = if gone i l then leftBy (s.slot i).gen l else s.slot i
  vacant : ∀ i, s.leaseAt i = none → t.slot i = s.slot i
  watches : WatchesTornDown s t gone
  wake : t.wake = s.wake

theorem leftBy_leaseAt {g : Gen} {l : Lease} {i : SlotNo} (slot : s.slot i = leftBy g l) : s.leaseAt i = none := by
  unfold State.leaseAt
  rw [slot]
  unfold leftBy
  cases l.binding <;> rfl

theorem State.leaseAt_of_slot {i : SlotNo} (slot : t.slot i = s.slot i) : t.leaseAt i = s.leaseAt i := by
  simp only [State.leaseAt, slot]

theorem Cleared.leaseAt (h : Cleared gone s t) {i : SlotNo} {l : Lease} :
    t.leaseAt i = some l ↔ s.leaseAt i = some l ∧ gone i l = false := by
  cases at_ : s.leaseAt i with
  | none => rw [State.leaseAt_of_slot (h.vacant i at_), at_]; simp
  | some m =>
    have slot := h.lease i m at_
    split at slot
    · next retired =>
      rw [leftBy_leaseAt slot]
      simp only [reduceCtorEq, Option.some.injEq, false_iff, not_and]
      rintro rfl
      simp [retired]
    · next stays =>
      rw [State.leaseAt_of_slot slot, at_]
      simp only [Option.some.injEq, iff_self_and]
      rintro rfl
      simpa using stays

theorem Cleared.congr (h : Cleared gone s t) (same : ∀ i l, s.leaseAt i = some l → gone' i l = gone i l) :
    Cleared gone' s t := by
  refine ⟨fun i l at_ => ?_, h.vacant, ⟨fun i l w r at_ retired => ?_, fun w unbound => ?_⟩, h.wake⟩
  · rw [same i l at_]; exact h.lease i l at_
  · rw [same i l at_] at retired; exact h.watches.1 i l w r at_ retired
  · exact h.watches.2 w fun i l at_ retired => unbound i l at_ (by rw [same i l at_]; exact retired)

theorem Cleared.refl (s : State) : Cleared (fun _ _ => false) s s :=
  ⟨fun _ _ _ => rfl, fun _ _ => rfl, ⟨fun _ _ _ _ _ retired => absurd retired Bool.false_ne_true, fun _ _ => rfl⟩, rfl⟩

theorem State.retire_cleared (i : SlotNo) (s : State) : Cleared (fun j _ => decide (j = i)) s (s.retire i) := by
  have wake : (s.retire i).wake = s.wake := by rw [State.retire_frame]
  cases at_ : s.leaseAt i with
  | none =>
    rw [State.retire_none _ _ at_]
    refine (Cleared.refl s).congr fun j l at_' => decide_eq_false fun same => ?_
    rw [same, at_] at at_'
    cases at_'
  | some l =>
    have named : Names s (s.handleAt i) l := by
      change s.slot i = { gen := (s.slot i).gen, cond := .lease l }
      rw [← State.leaseAt_iff.1 at_]
    obtain ⟨slot, others, watches⟩ := retire_tornDown (s := s) (t := s.retire i) named (fun _ => rfl) (fun _ => rfl)
    refine ⟨fun j m at_' => ?_, fun j vacant => others j fun same => ?_, watches, wake⟩
    · by_cases same : j = i
      · subst same
        obtain rfl : l = m := Option.some.inj (at_.symm.trans at_')
        rw [if_pos (decide_eq_true rfl)]
        exact slot
      · rw [if_neg (by simpa using same)]
        exact others j same
    · rw [same] at vacant
      exact absurd (vacant.symm.trans at_) (by simp)

theorem rearmed_again (u : WakeUnit) (r : Watch) : rearmed u (rearmed u r) = rearmed u r := rfl

theorem Cleared.trans (h : Cleared gone s t) (k : Cleared gone' t u) :
    Cleared (fun i l => gone i l || gone' i l) s u := by
  refine ⟨fun i l at_ => ?_, fun i vacant => ?_, ⟨fun i l w r at_ retired bound held => ?_, fun w unbound => ?_⟩,
    k.wake.trans h.wake⟩
  · cases first : gone i l with
    | true =>
      have slot : t.slot i = leftBy (s.slot i).gen l := by rw [h.lease i l at_, first]; rfl
      exact (k.vacant i (leftBy_leaseAt slot)).trans slot
    | false =>
      have slot : t.slot i = s.slot i := by rw [h.lease i l at_, first]; rfl
      have second := k.lease i l (h.leaseAt.2 ⟨at_, first⟩)
      rw [slot] at second
      exact second
  · have slot := h.vacant i vacant
    exact (k.vacant i ((State.leaseAt_of_slot slot).trans vacant)).trans slot
  · have between : t.watch w = some r ∨ t.watch w = some (rearmed s.wake r) := by
      by_cases other : ∃ j m, s.leaseAt j = some m ∧ gone j m = true ∧ m.binding = some w
      · obtain ⟨j, m, at_', retired', bound'⟩ := other
        exact .inr (h.watches.1 j m w r at_' retired' bound' held)
      · exact .inl ((h.watches.2 w fun j m at_' retired' bound' => other ⟨j, m, at_', retired', bound'⟩).trans held)
    by_cases second : ∃ j m, t.leaseAt j = some m ∧ gone' j m = true ∧ m.binding = some w
    · obtain ⟨j, m, at_', retired', bound'⟩ := second
      rcases between with stands | again
      · rw [k.watches.1 j m w r at_' retired' bound' stands, h.wake]
      · rw [k.watches.1 j m w _ at_' retired' bound' again, h.wake, rearmed_again]
    · have kept := k.watches.2 w fun j m at_' retired' bound' => second ⟨j, m, at_', retired', bound'⟩
      have first : gone i l = true := by
        by_contra stays
        have stays : gone i l = false := by simpa using stays
        have retired : gone' i l = true := by simpa [stays] using retired
        exact second ⟨i, l, h.leaseAt.2 ⟨at_, stays⟩, retired, bound⟩
      exact kept.trans (h.watches.1 i l w r at_ first bound held)
  · refine (k.watches.2 w fun i l at_ retired => ?_).trans (h.watches.2 w fun i l at_ retired => ?_)
    · exact unbound i l (h.leaseAt.1 at_).1 (by simp [retired])
    · exact unbound i l at_ (by simp [retired])

/-- Leases retired one after another (R147 step 2). -/
theorem State.retires_cleared (xs : List (SlotNo × Lease)) (s : State) :
    Cleared (fun i _ => decide (i ∈ xs.map Prod.fst)) s (xs.foldl (fun t x => t.retire x.1) s) := by
  induction xs generalizing s with
  | nil => exact (Cleared.refl s).congr fun _ _ _ => by simp
  | cons x xs ih =>
    refine ((s.retire_cleared x.1).trans (ih _)).congr fun i l _ => ?_
    rw [List.map_cons, ← Bool.decide_or]
    exact decide_eq_decide.2 List.mem_cons

/-- The listing order of a table with leases retired leaves those out (R11). -/
theorem Cleared.leases (h : Cleared gone s t) : t.leases = s.leases.filter (fun x => !gone x.1 x.2) := by
  refine State.leases_of_filter ?_
  have stays (i : SlotNo) : (t.leaseAt i).map (fun l => (i, l))
      = ((s.leaseAt i).map (fun l => (i, l))).filter (fun x : SlotNo × Lease => !gone x.1 x.2) := by
    cases at_ : s.leaseAt i with
    | none => rw [State.leaseAt_of_slot (h.vacant i at_), at_]; rfl
    | some l =>
      cases retired : gone i l with
      | true =>
        have slot := h.lease i l at_
        rw [if_pos retired] at slot
        rw [leftBy_leaseAt slot]
        simp [Option.filter, retired]
      | false => rw [h.leaseAt.2 ⟨at_, retired⟩]; simp [Option.filter, retired]
  unfold State.leasesBySlot
  rw [List.filter_filterMap]
  exact List.filterMap_congr fun i _ => stays i

theorem Cleared.handleAt (h : Cleared gone s t) {i : SlotNo} {l : Lease} (at_ : s.leaseAt i = some l)
    (stays : gone i l = false) : t.handleAt i = s.handleAt i := by
  unfold State.handleAt
  rw [h.lease i l at_, stays]
  rfl

end Cleared

/-! ### Offers ended together -/

section Offers

variable {s t v : State} {c : Client}

/-- The queues and the record of output changes are alike. -/
structure HeardAlike (s t : State) : Prop where
  queue : ∀ o, t.queue o = s.queue o
  changes : t.changes = s.changes

theorem HeardAlike.notify (h : HeardAlike s t) (o : Client) (k : NoticeKind) (sub : Subject) (det : Detail) :
    HeardAlike (s.notify o k sub det) (t.notify o k sub det) := by
  have queue : ∀ p, (t.notify o k sub det).queue p = (s.notify o k sub det).queue p :=
    fun p => State.notify_queue_congr h.queue
  refine ⟨queue, ?_⟩
  rw [State.notify_changes, State.notify_changes, h.changes]
  unfold attnChange
  rw [h.queue, queue]

/-- What notices leave in a queue rests on the queues alone (R155). -/
theorem appendAll_queue_congr (ns : List Note) (same : ∀ o, t.queue o = s.queue o) (o : Client) :
    (appendAll t ns).queue o = (appendAll s ns).queue o := by
  induction ns generalizing s t with
  | nil => exact same o
  | cons n ns ih => exact ih fun p => State.notify_queue_congr same

/-- A notice to the owners of some leases goes to a client that owns one of them. -/
theorem mem_toOwners {xs : List (SlotNo × Lease)} {k : NoticeKind} {det : Lease → Detail} {n : Note}
    (hn : n ∈ toOwners s xs k det) : ∃ x ∈ xs, x.2.owner = .client n.1 := by
  obtain ⟨x, hx, note⟩ := List.mem_filterMap.1 hn
  refine ⟨x, hx, ?_⟩
  cases owner : x.2.owner with
  | client o => rw [owner] at note; cases note; rfl
  | boot => rw [owner] at note; cases note

/-- A queue that no notice is for stands. -/
theorem appendAll_queue {o : Client} (ns : List Note) (s : State) (none_for : ∀ n ∈ ns, n.1 ≠ o) :
    (appendAll s ns).queue o = s.queue o := by
  induction ns generalizing s with
  | nil => rfl
  | cons n ns ih =>
    refine (ih _ fun m hm => none_for m (List.mem_cons_of_mem _ hm)).trans ?_
    exact State.notify_queue_ne (none_for n List.mem_cons_self).symm

theorem State.endOffer_slots (x : SlotNo × Lease) (s : State) :
    (s.endOffer c x).slots = (s.putLease x.1 { x.2 with offer := none }).slots :=
  (State.notifyOwner_aside ..).slots

theorem State.endOffer_handleAt (x : SlotNo × Lease) (s : State) (i : SlotNo) :
    (s.endOffer c x).handleAt i = s.handleAt i := by
  rw [State.handleAt_congr (s.endOffer_slots x)]
  unfold State.handleAt
  rw [State.putLease_slot]
  split
  · next same => rw [same]
  · rfl

/-- The offers of some leases ended: each lease keeps its place without its offer (R71). -/
theorem State.endOffers_slot (xs : List (SlotNo × Lease)) (apart : (xs.map Prod.fst).Nodup) (s : State) :
    (∀ x ∈ xs, (xs.foldl (State.endOffer c) s).slot x.1
        = { gen := (s.slot x.1).gen, cond := .lease { x.2 with offer := none } })
    ∧ ∀ i, i ∉ xs.map Prod.fst → (xs.foldl (State.endOffer c) s).slot i = s.slot i := by
  induction xs generalizing s with
  | nil => exact ⟨fun _ hx => absurd hx List.not_mem_nil, fun _ _ => rfl⟩
  | cons x xs ih =>
    obtain ⟨alone, apart⟩ := List.nodup_cons.1 apart
    obtain ⟨ended, others⟩ := ih apart (s.endOffer c x)
    have slot (i : SlotNo) : (s.endOffer c x).slot i
        = if i = x.1 then { gen := (s.slot x.1).gen, cond := .lease { x.2 with offer := none } } else s.slot i := by
      rw [← State.putLease_slot]
      unfold State.slot
      rw [State.endOffer_slots]
    refine ⟨fun y hy => ?_, fun i hi => ?_⟩
    · rcases List.mem_cons.1 hy with rfl | hy
      · exact (others _ alone).trans ((slot _).trans (if_pos rfl))
      · have other : y.1 ≠ x.1 := fun same => alone (same ▸ List.mem_map_of_mem hy)
        rw [List.foldl_cons, ended y hy, slot, if_neg other]
    · rw [List.map_cons, List.mem_cons, not_or] at hi
      rw [List.foldl_cons, others i hi.2, slot, if_neg hi.1]

/-- The offers of some leases ended: their offerers are told, in the order given (R71, R155). -/
theorem State.endOffers_told (xs : List (SlotNo × Lease)) (alike : HeardAlike v t)
    (handles : ∀ x ∈ xs, t.handleAt x.1 = s.handleAt x.1) :
    HeardAlike (appendAll v (toOwners s xs .offerEnded (fun _ => .ended c .targetGone)))
        (xs.foldl (State.endOffer c) t) := by
  induction xs generalizing t v with
  | nil => exact alike
  | cons x xs ih =>
    have later : ∀ y ∈ xs, (t.endOffer c x).handleAt y.1 = s.handleAt y.1 := fun y hy =>
      (t.endOffer_handleAt x y.1).trans (handles y (List.mem_cons_of_mem _ hy))
    have handle := handles x List.mem_cons_self
    cases owner : x.2.owner with
    | client o =>
      have told : toOwners s (x :: xs) .offerEnded (fun _ => .ended c .targetGone)
          = (o, .offerEnded, .lease (s.handleAt x.1), .ended c .targetGone)
            :: toOwners s xs .offerEnded (fun _ => .ended c .targetGone) := by
        unfold toOwners
        rw [List.filterMap_cons, owner]
      rw [told]
      refine ih (t := t.endOffer c x) ?_ later
      unfold State.endOffer
      rw [owner, handle]
      exact HeardAlike.notify (t := t.putLease x.1 _) ⟨alike.queue, alike.changes⟩ ..
    | boot =>
      have told : toOwners s (x :: xs) .offerEnded (fun _ => .ended c .targetGone)
          = toOwners s xs .offerEnded (fun _ => .ended c .targetGone) := by
        unfold toOwners
        rw [List.filterMap_cons, owner]
      rw [told]
      refine ih (t := t.endOffer c x) ?_ later
      unfold State.endOffer
      rw [owner]
      exact ⟨alike.queue, alike.changes⟩

theorem offeredTo_iff {x : SlotNo × Lease} : offeredTo c x = decide (x.2.offer.map Offer.target = some c) := by
  unfold offeredTo
  cases x.2.offer <;> simp

theorem State.endOffersTo_watch (w : WatchId) (s : State) : (s.endOffersTo c).watch w = s.watch w :=
  foldl_keeps (fun s t => t.watch w = s.watch w) (fun _ => rfl) (fun h k => k.trans h) (State.endOffer c)
    (fun t x => by unfold State.endOffer; rw [State.notifyOwner_frame]; rfl) _ s

theorem State.endOffersTo_client (o : Client) (s : State) : (s.endOffersTo c).client o = s.client o :=
  foldl_keeps (fun s t => t.client o = s.client o) (fun _ => rfl) (fun h k => k.trans h) (State.endOffer c)
    (fun t x => by unfold State.endOffer; rw [State.notifyOwner_frame]; rfl) _ s

/-- What the end of the offers to a client leaves in the slots (R71). -/
theorem State.endOffersTo_slot (s : State) :
    (∀ i l, s.leaseAt i = some l → (s.endOffersTo c).slot i
        = { gen := (s.slot i).gen
            cond := .lease { l with offer := if l.offer.map Offer.target = some c then none else l.offer } })
    ∧ ∀ i, s.leaseAt i = none → (s.endOffersTo c).slot i = s.slot i := by
  have apart : ((s.leases.filter (offeredTo c)).map Prod.fst).Nodup :=
    s.leases_nodup.sublist (List.filter_sublist.map Prod.fst)
  have listed {i : SlotNo} : i ∈ (s.leases.filter (offeredTo c)).map Prod.fst
      ↔ ∃ l, s.leaseAt i = some l ∧ offeredTo c (i, l) = true := by
    simp only [List.mem_map, List.mem_filter, State.mem_leases, Prod.exists]
    constructor
    · rintro ⟨j, l, ⟨at_, offered⟩, rfl⟩; exact ⟨l, at_, offered⟩
    · rintro ⟨l, at_, offered⟩; exact ⟨i, l, ⟨at_, offered⟩, rfl⟩
  obtain ⟨ended, others⟩ := State.endOffers_slot (c := c) _ apart s
  refine ⟨fun i l at_ => ?_, fun i vacant => others i fun mem => ?_⟩
  · cases offered : offeredTo c (i, l) with
    | true =>
      have target : l.offer.map Offer.target = some c := by simpa [offeredTo_iff] using offered
      rw [if_pos target]
      exact ended (i, l) (List.mem_filter.2 ⟨State.mem_leases.2 at_, offered⟩)
    | false =>
      have target : l.offer.map Offer.target ≠ some c := by simpa [offeredTo_iff] using offered
      rw [if_neg target]
      refine (others i fun mem => ?_).trans (State.leaseAt_iff.1 at_ ▸ rfl)
      obtain ⟨m, at_', offered'⟩ := listed.1 mem
      obtain rfl : l = m := Option.some.inj (at_.symm.trans at_')
      rw [offered] at offered'
      cases offered'
  · obtain ⟨l, at_, -⟩ := listed.1 mem
    rw [vacant] at at_
    cases at_

end Offers

/-! ### The restart (R147) -/

section Restart

variable {s v : State} {c : Client} {f : CauseFlags → CauseFlags} {gone gone₀ : SlotNo → Lease → Bool}

/-- The part as a restart of the client finds it once its leases are retired (R147 steps 1 and 2). -/
def State.stripped (c : Client) (f : CauseFlags → CauseFlags) (s : State) : State :=
  ((s.addCause c f).restartRetires c).foldl (fun t x => t.retire x.1) (s.addCause c f)

/-- The last steps of a restart: the client's port, queue and record, and CRST_N (R147 steps 4 to 6). -/
def State.cutOff (c : Client) (s : State) : State :=
  let s := (s.clearPort c).clearQueue c
  (s.setClient c { s.client c with pulse := Config.pulseTicks, tied := false }).driveCrst c true

theorem State.restart_eq (c : Client) (f : CauseFlags → CauseFlags) (s : State) :
    s.restart c f = ((s.stripped c f).endOffersTo c).cutOff c := rfl

theorem State.stripped_table (c : Client) (f : CauseFlags → CauseFlags) (s : State) :
    OnlyTable (s.addCause c f) (s.stripped c f) :=
  foldl_keeps _ OnlyTable.refl OnlyTable.trans _ (fun t (x : SlotNo × Lease) => t.retire_frame x.1) _ _

theorem State.stripped_client (s : State) (o : Client) :
    (s.stripped c f).client o
      = if o = c then { s.client c with causes := f (s.client c).causes } else s.client o := by
  have table := s.stripped_table c f
  unfold OnlyTable at table
  rw [table]
  exact State.setClient_client ..

theorem State.stripped_cleared (c : Client) (f : CauseFlags → CauseFlags) (s : State) :
    Cleared (fun _ l => decide (l.owner = .client c) && !l.survives) s (s.stripped c f) := by
  obtain ⟨lease, vacant, watches, wake⟩ := (s.addCause c f).retires_cleared ((s.addCause c f).restartRetires c) |>.congr
    (gone' := fun _ l => decide (l.owner = .client c) && !l.survives) fun i l at_ => by
      rw [Bool.eq_iff_iff, decide_eq_true_eq]
      simp only [State.restartRetires, List.mem_map, List.mem_filter, State.mem_leases, Prod.exists]
      constructor
      · intro goes
        exact ⟨i, l, ⟨at_, goes⟩, rfl⟩
      · rintro ⟨j, m, ⟨at_', goes⟩, rfl⟩
        obtain rfl : l = m := Option.some.inj (at_.symm.trans at_')
        exact goes
  exact ⟨lease, vacant, watches, wake⟩

/-- The port and the queue of the client are cut off first, then its record and CRST_N. -/
theorem State.driveCrst_pulses (v : Bool) (s : State) : OnlyPulses s (s.driveCrst c v) := by
  unfold State.driveCrst; split <;> rfl

theorem State.cutOff_pulses (s : State) : OnlyPulses ((s.clearPort c).clearQueue c) (s.cutOff c) :=
  OnlyPulses.trans (t := State.setClient _ _ _) rfl (State.driveCrst_pulses ..)

theorem State.cutOff_frame (s : State) :
    s.cutOff c
      = { s with
          clients := (s.cutOff c).clients, queues := (s.cutOff c).queues, ports := (s.cutOff c).ports
          changes := (s.cutOff c).changes } := by
  have pulses := s.cutOff_pulses (c := c)
  have queue : OnlyNotices (s.clearPort c) ((s.clearPort c).clearQueue c) := State.putQueue_frame ..
  unfold OnlyPulses at pulses
  unfold OnlyNotices at queue
  generalize s.cutOff c = t at pulses ⊢
  generalize (s.clearPort c).clearQueue c = u at pulses queue
  rw [pulses, queue]
  rfl

theorem State.cutOff_slot (s : State) (i : SlotNo) : (s.cutOff c).slot i = s.slot i := by
  rw [State.cutOff_frame]; rfl

theorem State.cutOff_watch (s : State) (w : WatchId) : (s.cutOff c).watch w = s.watch w := by
  rw [State.cutOff_frame]; rfl

theorem State.cutOff_queue (s : State) (o : Client) :
    (s.cutOff c).queue o = if o = c then Queue.initial else s.queue o := by
  have same : (s.cutOff c).queue o = ((s.clearPort c).clearQueue c).queue o := by
    simp only [State.queue, s.cutOff_pulses.queues]
  rw [same]
  exact State.putQueue_queue ..

theorem State.cutOff_port (s : State) (o : Client) :
    (s.cutOff c).port o = if o = c then Port.initial else s.port o := by
  have pulses := s.cutOff_pulses (c := c)
  have queue : OnlyNotices (s.clearPort c) ((s.clearPort c).clearQueue c) := State.putQueue_frame ..
  unfold OnlyPulses at pulses
  unfold OnlyNotices at queue
  rw [pulses, queue]
  exact State.setPort_port ..

theorem State.clearQueue_client (o : Client) (s : State) : ((s.clearPort c).clearQueue c).client o = s.client o := by
  have queue : OnlyNotices (s.clearPort c) ((s.clearPort c).clearQueue c) := State.putQueue_frame ..
  unfold OnlyNotices at queue
  rw [queue]
  rfl

theorem State.cutOff_client (s : State) (o : Client) :
    (s.cutOff c).client o
      = if o = c then { s.client c with pulse := Config.pulseTicks, crst := true, tied := false } else s.client o := by
  refine (State.driveCrst_client ..).trans ?_
  rw [State.setClient_client_self, State.clearQueue_client]
  split
  · rfl
  · next other => exact (State.setClient_client_ne _ _ _ other).trans (State.clearQueue_client ..)

/-- CRST_N driven: one change, where it moves (R140). -/
theorem State.driveCrst_changes (v : Bool) (s : State) :
    (s.driveCrst c v).changes = s.changes ++ if (s.client c).crst = v then [] else [.crst c v] := by
  unfold State.driveCrst
  split
  · exact (List.append_nil _).symm
  · rfl

/-- First the ATTN_N that the emptied queue moves, then CRST_N (R147, R160). -/
theorem State.cutOff_changes (s : State) :
    (s.cutOff c).changes
      = s.changes ++ attnChange s (s.cutOff c) c ++ if (s.client c).crst = true then [] else [.crst c true] := by
  have attn : attnChange (s.clearPort c) ((s.clearPort c).clearQueue c) c = attnChange s (s.cutOff c) c := by
    have same : (s.cutOff c).queue c = ((s.clearPort c).clearQueue c).queue c := by
      simp only [State.queue, s.cutOff_pulses.queues]
    unfold attnChange
    rw [same]
    rfl
  have cleared : ((s.clearPort c).clearQueue c).changes = s.changes ++ attnChange s (s.cutOff c) c := by
    rw [← attn]
    exact State.putQueue_changes ..
  refine (State.driveCrst_changes ..).trans ?_
  rw [State.setClient_client_self, State.clearQueue_client]
  exact congrArg (· ++ _) cleared

/-- The changes of CRST_N where one client's is asserted and no other moves. -/
theorem crstChanges_asserted {t : State} (asserted : (t.client c).crst = true)
    (others : ∀ o, o ≠ c → t.client o = s.client o) :
    crstChanges s t = if (s.client c).crst = true then [] else [.crst c true] := by
  unfold crstChanges
  split
  · next already =>
    have none_moves : (List.finRange 4).filter (fun o => decide ((t.client o).crst ≠ (s.client o).crst)) = [] := by
      refine List.filter_eq_nil_iff.2 fun o _ => ?_
      by_cases same : o = c
      · subst same; simp [asserted, already]
      · simp [others o same]
    rw [none_moves]
    rfl
  · next released =>
    have one_moves : (List.finRange 4).filter (fun o => decide ((t.client o).crst ≠ (s.client o).crst)) = [c] := by
      have only : ∀ o, decide ((t.client o).crst ≠ (s.client o).crst) = decide (o = c) := fun o => by
        by_cases same : o = c
        · subst same; simp [asserted, released]
        · simp [others o same, same]
      simp only [only]
      rw [List.filter_eq, List.count_eq_one_of_mem (List.nodup_finRange 4) (List.mem_finRange c)]
      rfl
    rw [one_moves, List.map_singleton, asserted]

/-- A client restarted, where some leases were retired before (R52, R147): what `Restarted` says. -/
theorem State.restart_restarted (cleared : Cleared gone₀ s v) (queue : ∀ o, v.queue o = s.queue o)
    (client : ∀ o, v.client o = s.client o) (fresh : v.changes = [])
    (sound : ∀ i l o, s.leaseAt i = some l → l.offer = some o → l.owner ≠ .client o.target)
    (goes : ∀ i l, s.leaseAt i = some l → gone i l = (gone₀ i l || (decide (l.owner = .client c) && !l.survives))) :
    Restarted s (v.restart c f) c f gone := by
  have all : Cleared gone s (v.stripped c f) := (cleared.trans (v.stripped_cleared c f)).congr goes
  have table := v.stripped_table c f
  unfold OnlyTable at table
  have offers : (v.stripped c f).leases.filter (offeredTo c)
      = s.leases.filter (fun x => decide (x.2.offer.map Offer.target = some c) && !gone x.1 x.2) := by
    rw [all.leases, List.filter_filter]
    simp only [offeredTo_iff]
  have told : HeardAlike (appendAll s.begin (goneNotes s c gone)) ((v.stripped c f).endOffersTo c) := by
    unfold goneNotes
    rw [← offers]
    refine State.endOffers_told _ ⟨fun o => ?_, ?_⟩ fun x hx => ?_
    · rw [table]; exact queue o
    · rw [table]; exact fresh
    · obtain ⟨at_, stays⟩ := all.leaseAt.1 (State.mem_leases.1 (List.mem_filter.1 hx).1)
      exact all.handleAt at_ stays
  have own : ((v.stripped c f).endOffersTo c).queue c = s.queue c := by
    rw [told.queue]
    refine appendAll_queue _ s.begin fun n hn same => ?_
    obtain ⟨x, hx, owner⟩ := mem_toOwners hn
    obtain ⟨listed, offered⟩ := List.mem_filter.1 hx
    have target : x.2.offer.map Offer.target = some c := of_decide_eq_true (Bool.and_eq_true_iff.1 offered).1
    obtain ⟨o, offer, rfl⟩ := Option.map_eq_some_iff.1 target
    exact sound x.1 x.2 o (State.mem_leases.1 listed) offer (owner.trans (congrArg Owner.client same))
  have record (o : Client) : ((v.stripped c f).endOffersTo c).client o
      = if o = c then { s.client c with causes := f (s.client c).causes } else s.client o := by
    rw [State.endOffersTo_client, State.stripped_client, client, client]
  have asserted : ((v.restart c f).client c)
      = { s.client c with causes := f (s.client c).causes, pulse := 4, crst := true, tied := false } := by
    rw [State.restart_eq, State.cutOff_client, if_pos rfl, record, if_pos rfl]
    rfl
  have others (o : Client) (other : o ≠ c) : (v.restart c f).client o = s.client o := by
    rw [State.restart_eq, State.cutOff_client, if_neg other, record, if_neg other]
  have slots (i : SlotNo) : (v.restart c f).slot i = ((v.stripped c f).endOffersTo c).slot i := by
    rw [State.restart_eq, State.cutOff_slot]
  have watch (w : WatchId) : (v.restart c f).watch w = (v.stripped c f).watch w := by
    rw [State.restart_eq, State.cutOff_watch, State.endOffersTo_watch]
  refine ⟨?_, ⟨fun i l w r at_ retired bound held => ?_, fun w unbound => ?_⟩, fun o other => ?_, ?_, ?_, asserted,
    others, ?_⟩
  · intro i
    obtain ⟨ended, stands⟩ := (v.stripped c f).endOffersTo_slot (c := c)
    rw [slots]
    cases at_ : s.leaseAt i with
    | none =>
      have slot := all.vacant i at_
      rw [stands i ((State.leaseAt_of_slot slot).trans at_), slot]
      split
      · rfl
      · rfl
      · next m cond => rw [State.leaseAt_iff.2 cond] at at_; cases at_
    | some l =>
      have slot := all.lease i l at_
      rw [State.leaseAt_iff.1 at_]
      dsimp only
      split at slot
      · next retired => rw [if_pos retired, stands i (leftBy_leaseAt slot), slot]
      · next stays => rw [if_neg stays, ended i l (all.leaseAt.2 ⟨at_, Bool.eq_false_iff.2 stays⟩), slot]
  · rw [watch]; exact all.watches.1 i l w r at_ retired bound held
  · rw [watch]; exact all.watches.2 w unbound
  · rw [State.restart_eq, State.cutOff_queue, if_neg other, told.queue]
    exact appendAll_queue_congr (s := s) (t := s.begin) _ (fun _ => rfl) o
  · rw [State.restart_eq, State.cutOff_port, if_pos rfl]
  · rw [State.restart_eq, State.cutOff_queue, if_pos rfl]
  · rw [crstChanges_asserted (by rw [asserted]) others, State.restart_eq, State.cutOff_changes, told.changes, record,
      if_pos rfl]
    unfold attnChange
    rw [own]

end Restart

/-- Settles O16: the lapsing lease goes first, then its owner is restarted within the take. -/
theorem restartLapseRestartsTheOwner : Obligations.RestartLapseRestartsTheOwner := by
  intro s h l c law _ running waits named owner timed ended action
  have sound := (leaseLaw_iff s).1 law
  have lapses : s.begin.takeTerm h
      = ((s.begin.dropTerm h).retire h.slot).restart c (fun f => { f with lapseRestart := true }) := by
    rw [State.takeTerm_lapses (s := s.begin) named timed ended]
    unfold State.lapse State.lapseRestart
    rw [action, owner]
  have retired := (s.begin.dropTerm h).retire_frame h.slot
  have restarted := State.restart_frame c (fun f => { f with lapseRestart := true })
    ((s.begin.dropTerm h).retire h.slot)
  obtain ⟨t, exec_eq, taken⟩ := exec_leaseTermExpiry running waits (by rw [lapses, restarted, retired]; rfl)
  rw [lapses] at taken
  obtain ⟨lease, vacant, watches, wake⟩ := (s.begin.dropTerm h).retire_cleared h.slot
  have torn := State.restart_restarted (s := s) (v := (s.begin.dropTerm h).retire h.slot) (c := c)
    (f := fun f => { f with lapseRestart := true })
    (gone := fun i m => decide (i = h.slot ∨ (m.owner = .client c ∧ m.survives = false)))
    ⟨lease, vacant, watches, wake⟩ (fun o => by rw [retired]; rfl) (fun o => by rw [retired]; rfl)
    (by rw [retired]; rfl)
    (fun i m o at_ offer => ((leaseSound_iff.1 (sound.lease i m at_)).2.2.2.2 o offer).2.1)
    (fun i m _ => by simp [Bool.decide_or, Bool.decide_and])
  have ports (o : Client) (other : o ≠ c) : t.port o = s.port o := by
    rw [taken.port, State.restart_port_ne other, retired]; rfl
  generalize ((s.begin.dropTerm h).retire h.slot).restart c (fun f => { f with lapseRestart := true }) = u
    at taken torn restarted
  generalize (s.begin.dropTerm h).retire h.slot = v at restarted retired
  have frame := taken.frame
  rw [restarted, retired] at frame
  refine ⟨t, exec_eq, ?_, ?_, taken.handed, ports, ?_, taken.judged⟩
  · rw [taken.frame]; exact torn
  · rw [frame]; rfl
  · rw [frame]; rfl

end Sys2Proof.Machine

/-! ## The forest of domains -/

namespace Sys2Proof.Machine

open Sys2Proof.Statement

section Forest

variable {s : State}

/-- The parent of a domain (R95). -/
def State.parent (s : State) (d : Dom) : Option Dom := (s.ctrl d).setup.parent

/-- The domain `n` parents above a domain, if there is one. -/
def State.climb (s : State) : Nat → Dom → Option Dom
  | 0, d => some d
  | n + 1, d => (s.parent d).bind (s.climb n)

theorem State.climb_succ (n : Nat) (d : Dom) : s.climb (n + 1) d = (s.parent d).bind (s.climb n) := rfl

theorem State.climb_add (m n : Nat) (d : Dom) : s.climb (m + n) d = (s.climb m d).bind (s.climb n) := by
  induction m generalizing d with
  | zero => rw [Nat.zero_add]; rfl
  | succ m ih =>
    rw [Nat.add_right_comm, State.climb_succ, State.climb_succ, Option.bind_assoc]
    exact congrArg (Option.bind _) (funext ih)

theorem State.reaches_of_climb {n fuel : Nat} {d p : Dom} (climbs : s.climb n p = some d) (le : n ≤ fuel) :
    s.reaches d fuel p = true := by
  induction fuel generalizing n p with
  | zero =>
    obtain rfl : n = 0 := Nat.le_zero.1 le
    exact decide_eq_true (Option.some.inj climbs)
  | succ fuel ih =>
    unfold State.reaches
    rw [Bool.or_eq_true]
    cases n with
    | zero => exact .inl (decide_eq_true (Option.some.inj climbs))
    | succ n =>
      obtain ⟨q, parent, climbs⟩ := Option.bind_eq_some_iff.1 climbs
      rw [show (s.ctrl p).setup.parent = some q from parent]
      exact .inr (ih climbs (Nat.le_of_succ_le_succ le))

/-- No domain stands among the eight above itself. -/
theorem ForestLaw.climb_ne (law : ForestLaw s) {n : Nat} (above : 1 ≤ n) (near : n ≤ 8) (d : Dom) :
    s.climb n d ≠ some d := by
  intro climbs
  obtain ⟨m, rfl⟩ : ∃ m, n = m + 1 := ⟨n - 1, by omega⟩
  obtain ⟨p, parent, climbs⟩ := Option.bind_eq_some_iff.1 climbs
  have open_ := law d
  rw [show (s.ctrl d).setup.parent = some p from parent] at open_
  exact absurd open_ (by simp [State.closesCycle, State.reaches_of_climb climbs (show m ≤ 7 by omega)])

/-- Eight domains leave no room for a chain of nine. -/
theorem ForestLaw.climb_ends (law : ForestLaw s) (d : Dom) : s.climb 8 d = none := by
  by_contra goes
  have stands : ∀ i : Fin 9, ∃ e, s.climb i d = some e := by
    intro i
    by_contra ends
    have ends : s.climb i d = none := Option.eq_none_iff_forall_not_mem.2 fun e he => ends ⟨e, he⟩
    refine goes ?_
    rw [show 8 = i.1 + (8 - i.1) by omega, State.climb_add, ends]
    rfl
  choose at_ climbs using stands
  obtain ⟨i, j, apart, same⟩ := Fintype.exists_ne_map_eq_of_card_lt at_ (by simp)
  have meet : ∀ i j : Fin 9, i < j → at_ i ≠ at_ j := by
    intro i j lt same
    refine law.climb_ne (n := j.1 - i.1) (by omega) (by omega) (at_ i) ?_
    have reach := climbs j
    rw [show j.1 = i.1 + (j.1 - i.1) by omega, State.climb_add, climbs i] at reach
    rw [same] at reach ⊢
    exact reach
  rcases lt_or_gt_of_ne apart with lt | gt
  · exact meet i j lt same
  · exact meet j i gt same.symm

/-- The number of domains above a domain, itself counted. -/
def State.depth (s : State) (d : Dom) : Nat := (List.range 8).countP (fun n => (s.climb n d).isSome)

theorem ForestLaw.depth_lt (law : ForestLaw s) {d p : Dom} (parent : s.parent d = some p) : s.depth p < s.depth d := by
  have up (n : Nat) : s.climb (n + 1) d = s.climb n p := by rw [State.climb_succ, parent]; rfl
  have ends : s.climb 7 p = none := (up 7).symm.trans (law.climb_ends d)
  have above : s.depth p = (List.range 7).countP (fun n => (s.climb n p).isSome) := by
    unfold State.depth
    rw [List.range_succ, List.countP_append, List.countP_singleton, ends]
    rfl
  have here : s.depth d = (List.range 7).countP (fun n => (s.climb n p).isSome) + 1 := by
    unfold State.depth
    rw [List.range_succ_eq_map, List.countP_cons, List.countP_map]
    simp only [Function.comp_def, Nat.succ_eq_add_one, up]
    rfl
  omega

/-- The first domain stands at or below the second in the forest (R95). -/
abbrev State.Under (s : State) : Dom → Dom → Prop := Relation.ReflTransGen (fun e p => s.parent e = some p)

theorem ForestLaw.depth_le (law : ForestLaw s) {e p : Dom} (under : s.Under e p) : s.depth p ≤ s.depth e := by
  induction under with
  | refl => exact le_refl _
  | tail _ step ih => exact (law.depth_lt step).le.trans ih

/-- A parent is not under its child. -/
theorem ForestLaw.not_under (law : ForestLaw s) {d p : Dom} (parent : s.parent d = some p) : ¬ s.Under p d :=
  fun under => absurd (law.depth_le under) (Nat.not_le.2 (law.depth_lt parent))

theorem ForestLaw.parent_ne (law : ForestLaw s) {d p : Dom} (parent : s.parent d = some p) : p ≠ d :=
  fun same => law.not_under parent (same ▸ .refl)

/-- The children of one domain have no domain under them in common. -/
theorem ForestLaw.apart (law : ForestLaw s) {p c c' e : Dom} (child : s.parent c = some p)
    (child' : s.parent c' = some p)
    (ne : c ≠ c') (under : s.Under e c) : ¬ s.Under e c' := by
  have split {a b : Dom} (parent : s.parent a = some p) (parent' : s.parent b = some p) (ne : a ≠ b) :
      ¬ s.Under a b := by
    intro between
    rcases Relation.ReflTransGen.cases_head between with same | ⟨q, step, rest⟩
    · exact ne same
    · obtain rfl : p = q := Option.some.inj (parent.symm.trans step)
      exact law.not_under parent' rest
  intro under'
  rcases Relation.ReflTransGen.total_of_right_unique (fun _ _ _ h k => Option.some.inj (h.symm.trans k)) under under'
    with between | between
  · exact split child child' ne between
  · exact split child' child ne.symm between

end Forest

end Sys2Proof.Machine

/-! ## What a domain hands its neighbours -/

namespace Sys2Proof.Machine

open Sys2Proof.Statement

/-! ### Demands on their scale (R76) -/

section Reaches

theorem reachRank_inj {a b : Reach} : reachRank a = reachRank b ↔ a = b := by
  refine ⟨fun h => ?_, congrArg _⟩
  rcases a with _ | (_ | _ | _) <;> rcases b with _ | (_ | _ | _) <;> simp [reachRank] at h ⊢

theorem reachRank_zero {a : Reach} : reachRank a = 0 ↔ a = none := reachRank_inj (b := none)

theorem reachRank_some_pos (l : Level) : 1 ≤ reachRank (some l) := by cases l <;> decide

theorem crosses_same (need : Level) (a : Reach) : crosses need a a = false := by simp [crosses]

/-- A demand handed on twice, falling each time or first not at all, moves as from its first value to its last. -/
theorem handed_chain {lease first next last : Reach}
    (falls : next = first ∨ (reachRank next ≤ reachRank first ∧ reachRank last ≤ reachRank next)) :
    (decide (reachMax lease next ≠ reachMax lease first) || decide (reachMax lease last ≠ reachMax lease next))
      = decide (reachMax lease last ≠ reachMax lease first) := by
  rcases falls with rfl | ⟨_, _⟩
  · simp
  · rw [Bool.eq_iff_iff]
    simp only [ne_eq, ← reachRank_inj, reachRank_reachMax, Bool.or_eq_true, decide_eq_true_eq]
    omega

end Reaches

/-! ### The derived demand and who it counts (R97) -/

section Derived

variable {s t : State} {p : Dom}

/-- The derived demand of a domain rests on its children alone. -/
theorem State.derivedFrom_children (setup : ∀ c, (t.ctrl c).setup = (s.ctrl c).setup)
    (counts : ∀ c, s.parent c = some p → (t.ctrl c).counts = (s.ctrl c).counts) :
    t.derivedFrom p = s.derivedFrom p := by
  have same (c : Dom) : ((t.ctrl c).setup.parent = some p ∧ (t.ctrl c).counts = true)
      ↔ ((s.ctrl c).setup.parent = some p ∧ (s.ctrl c).counts = true) := by
    rw [setup]
    exact and_congr_right fun child => by rw [counts c child]
  unfold State.derivedFrom
  exact List.foldl_ext _ _ _ fun m c _ => if_congr (same c) (by rw [setup]) rfl

/-- The derived demand of a domain does not rise where fewer children are counted. -/
theorem State.derivedFrom_le (setup : ∀ c, (t.ctrl c).setup = (s.ctrl c).setup)
    (counts : ∀ c, s.parent c = some p → (t.ctrl c).counts = true → (s.ctrl c).counts = true) :
    reachRank (t.derivedFrom p) ≤ reachRank (s.derivedFrom p) := by
  rw [State.derivedFrom_greatest t]
  rcases greatest_attained (counts := fun c => (t.ctrl c).setup.parent = some p ∧ (t.ctrl c).counts = true)
    (level := fun c => (t.ctrl c).setup.need) (List.finRange 8) none with none_counts | ⟨c, -, ⟨child, counted⟩, top⟩
  · rw [none_counts]; exact Nat.zero_le _
  · rw [top, setup, State.derivedFrom_greatest]
    rw [setup] at child
    exact le_greatest (level := fun c => (s.ctrl c).setup.need)
        (List.mem_finRange c) ⟨child, counts c child counted⟩ none

/-- A counted child has its need in the derived demand. -/
theorem State.need_le_derivedFrom {c : Dom} (child : s.parent c = some p) (counted : (s.ctrl c).counts = true) :
    reachRank (some (s.ctrl c).setup.need) ≤ reachRank (s.derivedFrom p) := by
  rw [State.derivedFrom_greatest]
  exact le_greatest (level := fun c => (s.ctrl c).setup.need) (List.mem_finRange c) ⟨child, counted⟩ none

end Derived

/-! ### The records handed on (R98, R99) -/

section Hands

variable {s s' t v : State} {b : Dom → Ctrl} {c : Dom} {y : Ctrl}

/-- Whether the parent of a domain with the record `x` crosses its need between `s` and `t` (R99). -/
def called (s t : State) (x : Ctrl) : Bool :=
  match x.setup.parent with
  | none => false
  | some p => crosses x.setup.need (effLevel (s.ctrl p).state) (effLevel (t.ctrl p).state)

theorem handed_eq (s t : State) (e : Dom) (x : Ctrl) :
    handed s t e x
      = { x with
          derivedDemand := t.derivedFrom e
          demandPending := x.demandPending || decide (reachMax x.leaseDemand (t.derivedFrom e) ≠ x.demand)
          parentPending := x.parentPending || called s t x } := by
  unfold handed called
  cases x.setup.parent <;> rfl

@[simp] theorem handed_setup (e : Dom) (x : Ctrl) : (handed s t e x).setup = x.setup := rfl
@[simp] theorem handed_counts (e : Dom) (x : Ctrl) : (handed s t e x).counts = x.counts := rfl
@[simp] theorem handed_state (e : Dom) (x : Ctrl) : (handed s t e x).state = x.state := rfl
@[simp] theorem handed_timer (e : Dom) (x : Ctrl) : (handed s t e x).timer = x.timer := rfl
@[simp] theorem handed_cold (e : Dom) (x : Ctrl) : (handed s t e x).cold = x.cold := rfl
@[simp] theorem handed_pins (e : Dom) (x : Ctrl) : (handed s t e x).pins = x.pins := rfl
@[simp] theorem handed_leaseDemand (e : Dom) (x : Ctrl) : (handed s t e x).leaseDemand = x.leaseDemand := rfl
@[simp] theorem handed_derivedDemand (e : Dom) (x : Ctrl) : (handed s t e x).derivedDemand = t.derivedFrom e := rfl
@[simp] theorem handed_lossPending (e : Dom) (x : Ctrl) : (handed s t e x).lossPending = x.lossPending := rfl

/-- Every controller holds what it is handed between `s` and `t`, over the record that `b` gives (R98, R99). -/
def Hands (s : State) (b : Dom → Ctrl) (t : State) : Prop := ∀ e, t.ctrl e = handed s t e (b e)

theorem Hands.setup (h : Hands s b t) (e : Dom) : (t.ctrl e).setup = (b e).setup := by rw [h e]; rfl
theorem Hands.state (h : Hands s b t) (e : Dom) : (t.ctrl e).state = (b e).state := by rw [h e]; rfl
theorem Hands.counts (h : Hands s b t) (e : Dom) : (t.ctrl e).counts = (b e).counts := by rw [h e]; rfl
theorem Hands.derived (h : Hands s b t) (e : Dom) : (t.ctrl e).derivedDemand = t.derivedFrom e := by rw [h e]; rfl

/-- A record that holds its derived demand is handed nothing where nothing moved. -/
theorem handed_self {e : Dom} {x : Ctrl} (derived : x.derivedDemand = s.derivedFrom e) : handed s s e x = x := by
  have uncalled : called s s x = false := by
    unfold called
    cases x.setup.parent with
    | none => rfl
    | some p => exact crosses_same ..
  rw [handed_eq, uncalled, ← derived]
  simp [Ctrl.demand]

/-- A state hands itself nothing. -/
theorem Hands.refl (derived : ∀ p, (s.ctrl p).derivedDemand = s.derivedFrom p) : Hands s s.ctrl s :=
  fun e => (handed_self (derived e)).symm

/-- A record put in place of another. -/
def replaced (b : Dom → Ctrl) (c : Dom) (y : Ctrl) : Dom → Ctrl := fun e => if e = c then y else b e

/-- The children of a domain that has changed its effective level are told of it, counted from the level in `s'`
(R99). -/
theorem Hands.told (h : Hands s b t) (passed : ∀ e, v.ctrl e = handed s t e (replaced b c y e))
    (setup : y.setup = (b c).setup) (counts : y.counts = (b c).counts)
    (level : effLevel (b c).state = effLevel (s.ctrl c).state)
    (levels : ∀ p, p ≠ c → effLevel (s'.ctrl p).state = effLevel (s.ctrl p).state) :
    Hands s' (replaced b c y) (v.tellChildren c (effLevel (s'.ctrl c).state))
    ∧ ∀ p, (v.tellChildren c (effLevel (s'.ctrl c).state)).derivedFrom p = t.derivedFrom p := by
  have v_ctrl (e : Dom) : (v.ctrl e).setup = (b e).setup ∧ (v.ctrl e).counts = (b e).counts
      ∧ (v.ctrl e).state = (replaced b c y e).state := by
    rw [passed, handed_setup, handed_counts, handed_state]
    unfold replaced
    split
    · next same => subst same; exact ⟨setup, counts, rfl⟩
    · exact ⟨rfl, rfl, rfl⟩
  have derived (p : Dom) : (v.tellChildren c (effLevel (s'.ctrl c).state)).derivedFrom p = t.derivedFrom p := by
    refine State.derivedFrom_congr (fun e => ?_) (fun e => ?_) p
    · rw [State.tellChildren_ctrl, h.setup, ← (v_ctrl e).1]; split <;> rfl
    · rw [State.tellChildren_ctrl, h.counts, ← (v_ctrl e).2.1]; split <;> rfl
  refine ⟨fun e => ?_, derived⟩
  have tells : (v.calls c (effLevel (s'.ctrl c).state) e || called s t (replaced b c y e))
      = called s' (v.tellChildren c (effLevel (s'.ctrl c).state)) (replaced b c y e) := by
    have state (p : Dom) : ((v.tellChildren c (effLevel (s'.ctrl c).state)).ctrl p).state
        = (replaced b c y p).state := by
      rw [State.tellChildren_ctrl, ← (v_ctrl p).2.2]; split <;> rfl
    have own : (replaced b c y e).setup = (v.ctrl e).setup := by rw [passed, handed_setup]
    unfold called State.calls
    rw [own]
    cases parent : (v.ctrl e).setup.parent with
    | none => simp
    | some p =>
      simp only [Option.some.injEq, state, h.state, (v_ctrl c).2.2]
      by_cases here : p = c
      · subst here
        rw [level, crosses_same]
        simp
      · simp [here, replaced, levels p here]
  rw [State.tellChildren_ctrl, passed, handed_eq, handed_eq, derived, ← tells]
  cases v.calls c (effLevel (s'.ctrl c).state) e <;> simp

/-- What the end of a change of domain `c` hands on: its children are told, it is counted, and its parent holds the
derived demand that follows (R98, R99). -/
theorem Hands.step (h : Hands s b t) (passed : ∀ e, v.ctrl e = handed s t e (replaced b c y e))
    (setup : y.setup = (b c).setup) (counts : y.counts = (b c).counts)
    (level : effLevel (b c).state = effLevel (s.ctrl c).state)
    (levels : ∀ p, p ≠ c → effLevel (s'.ctrl p).state = effLevel (s.ctrl p).state)
    (irrefl : ∀ p, (b c).setup.parent = some p → p ≠ c)
    (counted : Ctrl.counted { y with derivedDemand := t.derivedFrom c } = y.counted)
    (falls : ∀ p, (b c).setup.parent = some p → t.derivedFrom p = (b p).derivedDemand
      ∨ (reachRank (t.derivedFrom p) ≤ reachRank (b p).derivedDemand ∧ (y.counted = true → (b c).counts = true))) :
    Hands s' (replaced b c { y with counts := y.counted }) (v.handNeighbours c (effLevel (s'.ctrl c).state)) := by
  obtain ⟨told, derived⟩ := h.told passed setup counts level levels
  unfold State.handNeighbours
  generalize v.tellChildren c (effLevel (s'.ctrl c).state) = u at told derived ⊢
  have here : (u.ctrl c).counted = y.counted := by
    rw [told c, ← counted, handed_eq, derived, replaced, if_pos rfl]
    rfl
  have recount (e : Dom) : (u.recount c).ctrl e = handed s' u e (replaced b c { y with counts := y.counted } e) := by
    unfold State.recount
    rw [State.modCtrl_ctrl]
    split
    · next same => subst same; rw [here, told e, handed_eq, handed_eq, replaced, replaced, if_pos rfl, if_pos rfl]; rfl
    · next other => rw [told e]; simp only [replaced, if_neg other]
  have kept (e : Dom) : (((u.recount c).recomputeParent c).syncHome c).derivedFrom e = (u.recount c).derivedFrom e := by
    rw [← State.recomputeParent_derivedFrom (u.recount c) c]
    exact State.derivedFrom_congr (fun x => by rw [State.syncHome_ctrl]) (fun x => by rw [State.syncHome_ctrl]) e
  have same_setup (e : Dom) : ((u.recount c).ctrl e).setup = (u.ctrl e).setup := by
    unfold State.recount
    rw [State.modCtrl_ctrl]
    split
    · next same => rw [same]
    · rfl
  have same_counts (e : Dom) (other : e ≠ c) : ((u.recount c).ctrl e).counts = (u.ctrl e).counts := by
    unfold State.recount
    rw [State.modCtrl_ctrl, if_neg other]
  have parent : ((u.recount c).ctrl c).setup.parent = (b c).setup.parent := by
    rw [same_setup, told.setup, replaced, if_pos rfl, setup]
  intro e
  have levels : called s' (((u.recount c).recomputeParent c).syncHome c) (replaced b c { y with counts := y.counted } e)
      = called s' u (replaced b c { y with counts := y.counted } e) := by
    have state (p : Dom) : ((((u.recount c).recomputeParent c).syncHome c).ctrl p).state = (u.ctrl p).state := by
      rw [State.syncHome_ctrl, State.recomputeParent_ctrl]
      have counted_state : ((u.recount c).ctrl p).state = (u.ctrl p).state := by
        unfold State.recount
        rw [State.modCtrl_ctrl]
        split
        · next same => rw [same]
        · rfl
      split <;> exact counted_state
    unfold called
    simp only [state]
  rw [State.syncHome_ctrl, State.recomputeParent_ctrl, parent, handed_eq, kept, levels]
  split
  · next up =>
    have other : e ≠ c := irrefl e up
    have base : replaced b c { y with counts := y.counted } e = b e := if_neg other
    have falls : u.derivedFrom e = (b e).derivedDemand ∨ (reachRank (u.derivedFrom e) ≤ reachRank (b e).derivedDemand
        ∧ reachRank ((u.recount c).derivedFrom e) ≤ reachRank (u.derivedFrom e)) := by
      rw [derived]
      refine (falls e up).imp_right fun ⟨fell, fewer⟩ => ⟨fell, ?_⟩
      rw [← derived]
      refine State.derivedFrom_le same_setup fun x _ counts' => ?_
      by_cases self : x = c
      · subst self
        rw [told.counts, replaced, if_pos rfl, counts]
        refine fewer ?_
        rwa [recount, handed_counts, replaced, if_pos rfl] at counts'
      · rwa [same_counts x self] at counts'
    have chain := handed_chain (lease := (b e).leaseDemand) falls
    rw [recount, base, handed_eq, Ctrl.hand]
    unfold Ctrl.demand
    rw [← chain, ← Bool.or_assoc]
  · next up =>
    have stands : (u.recount c).derivedFrom e = u.derivedFrom e := by
      refine State.derivedFrom_children same_setup fun x child => same_counts x fun self => up ?_
      rw [← parent, same_setup, ← self]
      exact child
    rw [recount, handed_eq, stands]

end Hands

end Sys2Proof.Machine

/-! ## What a controller event tells: notices and CRST_N -/

namespace Sys2Proof.Machine

open Sys2Proof.Statement

/-! ### Notices in a row (R90, R106, R114, R160) -/

section Notes

variable {s t w : State} {d : Dom} {ms ns : List Note}

theorem State.queues_ext (same : ∀ o, t.queue o = s.queue o) : t.queues = s.queues := Vec.ext same

theorem HeardAlike.queues (h : HeardAlike s t) : t.queues = s.queues := State.queues_ext h.queue

theorem HeardAlike.of_eq (queues : t.queues = s.queues) (changes : t.changes = s.changes) : HeardAlike s t :=
  ⟨fun o => by unfold State.queue; rw [queues], changes⟩

theorem HeardAlike.appendAll (h : HeardAlike s t) (ns : List Note) : HeardAlike (appendAll s ns) (appendAll t ns) := by
  induction ns generalizing s t with
  | nil => exact h
  | cons n ns ih => exact ih (h.notify ..)

theorem appendAll_queues_congr (ns : List Note) (same : t.queues = s.queues) :
    (appendAll t ns).queues = (appendAll s ns).queues :=
  State.queues_ext (appendAll_queue_congr ns fun o => by unfold State.queue; rw [same])

theorem appendAll_append (s : State) (ms ns : List Note) : appendAll s (ms ++ ns) = appendAll (appendAll s ms) ns :=
  List.foldl_append

theorem appendAll_frame (s : State) (ns : List Note) : OnlyNotices s (appendAll s ns) :=
  foldl_keeps _ OnlyNotices.refl OnlyNotices.trans _ (fun _ _ => State.notify_frame ..) ns s

theorem appendAll_ctrl (s : State) (ns : List Note) (e : Dom) : (appendAll s ns).ctrl e = s.ctrl e := by
  rw [appendAll_frame]; rfl

theorem appendAll_client (s : State) (ns : List Note) (o : Client) : (appendAll s ns).client o = s.client o := by
  rw [appendAll_frame]; rfl

/-- Notices move ATTN_N only (R160). -/
theorem appendAll_changes (s : State) (ns : List Note) :
    ∃ xs, (appendAll s ns).changes = s.changes ++ xs ∧ ∀ x ∈ xs, outputOf x = none := by
  induction ns generalizing s with
  | nil => exact ⟨[], (List.append_nil _).symm, nofun⟩
  | cons n ns ih =>
    obtain ⟨xs, changes, attn⟩ := ih (s.notify n.1 n.2.1 n.2.2.1 n.2.2.2)
    refine ⟨attnChange s (s.notify n.1 n.2.1 n.2.2.1 n.2.2.2) n.1 ++ xs, ?_, fun x hx => ?_⟩
    · rw [← List.append_assoc, ← State.notify_changes]; exact changes
    · rcases List.mem_append.1 hx with here | later
      · unfold attnChange at here
        split at here
        · cases here
        · rw [List.mem_singleton.1 here]; rfl
      · exact attn x later

/-- The owners of some leases told one after another. -/
theorem State.tellOwners (xs : List (SlotNo × Lease)) (k : NoticeKind) (det : Lease → Detail) (t : State) :
    xs.foldl (fun t x => t.notifyOwner x.2.owner k (.lease (s.handleAt x.1)) (det x.2)) t
      = appendAll t (toOwners s xs k det) := by
  induction xs generalizing t with
  | nil => rfl
  | cons x xs ih =>
    rw [List.foldl_cons, ih]
    unfold toOwners
    rw [List.filterMap_cons]
    cases x.2.owner <;> rfl

theorem toOwners_congr (slots : t.slots = s.slots) (xs : List (SlotNo × Lease)) (k : NoticeKind)
    (det : Lease → Detail) :
    toOwners t xs k det = toOwners s xs k det := by
  unfold toOwners
  simp only [State.handleAt_congr slots]

/-- GRANTED for a rise of a domain that provided the level of `s` (R90). -/
theorem State.tellGranted_notes (slots : w.slots = s.slots) :
    w.tellGranted d (effLevel (s.ctrl d).state) = appendAll w (grantNotes s w d) := by
  unfold State.tellGranted grantNotes
  cases effLevel (w.ctrl d).state with
  | none => rfl
  | some now =>
    refine (State.tellOwners (s := w) _ .granted (fun _ => .level d now) w).trans ?_
    rw [toOwners_congr slots, State.leases_congr slots]
    simp only [Bool.decide_and, Bool.and_assoc]

theorem grantNotes_congr (level : effLevel (t.ctrl d).state = effLevel (w.ctrl d).state) :
    grantNotes s t d = grantNotes s w d := by
  unfold grantNotes; rw [level]

/-- Where a domain does not rise no GRANTED is due (R90). -/
theorem grantNotes_fallen (fallen : reachRank (effLevel (t.ctrl d).state) ≤ reachRank (effLevel (s.ctrl d).state)) :
    grantNotes s t d = [] := by
  unfold grantNotes
  cases level : effLevel (t.ctrl d).state with
  | none => rfl
  | some now =>
    have nobody : s.leases.filter (fun x => decide (x.2.domain = d
        ∧ reachRank (effLevel (s.ctrl d).state) < reachRank (some x.2.level)
        ∧ reachRank (some x.2.level) ≤ reachRank (some now))) = [] := by
      refine List.filter_eq_nil_iff.2 fun x _ => ?_
      rw [level] at fallen
      simp only [decide_eq_true_eq]
      omega
    dsimp only
    rw [nobody]
    rfl

/-- DOMAIN_FAULT and FAULTED (R114). -/
theorem State.tellFault_notes (slots : w.slots = s.slots) (supervisor : w.supervisor = s.supervisor)
    (cause : FaultCause) :
    w.tellFault d cause = appendAll w (faultNotes s d cause) := by
  unfold State.tellFault faultNotes
  rw [appendAll_append, supervisor, State.leases_congr slots, ← toOwners_congr slots]
  exact State.tellOwners (s := w) _ .faulted (fun _ => .cause d cause) _

/-- The UNGRANTED notices of the stop of one domain (R106). -/
def ungrantNotes (s : State) (e : Dom) : List Note :=
  toOwners s
    (s.leases.filter (fun x =>
      decide (x.2.domain = e ∧ x.2.level ≠ .hold
        ∧ reachRank (some x.2.level) ≤ reachRank (effLevel (s.ctrl e).state))))
    .ungranted (fun _ => .level e .hold)

theorem State.tellUngranted_notes (slots : w.slots = s.slots) :
    w.tellUngranted d (effLevel (s.ctrl d).state) = appendAll w (ungrantNotes s d) := by
  have above (l : Level) : decide (1 < reachRank (some l)) = decide (l ≠ .hold) := by cases l <;> rfl
  unfold State.tellUngranted ungrantNotes
  refine (State.tellOwners (s := w) _ .ungranted (fun _ => .level d .hold) w).trans ?_
  rw [toOwners_congr slots, State.leases_congr slots]
  simp only [above, Bool.decide_and, Bool.and_assoc]

theorem ungrantNotes_congr (slots : t.slots = s.slots) (level : effLevel (t.ctrl d).state = effLevel (s.ctrl d).state) :
    ungrantNotes t d = ungrantNotes s d := by
  unfold ungrantNotes
  rw [toOwners_congr slots, State.leases_congr slots, level]

end Notes

/-! ### CRST_N and the tie of R141 -/

section Follow

variable {s t : State} {d : Dom}

/-- A client's record with CRST_N following a home that is cold or warm, where the tie of R141 stands over a warm one.
-/
def follow (r : ClientRec) (cold : Bool) : ClientRec :=
  { r with crst := cold || decide (0 < r.pulse) || (r.tied && !cold), tied := r.tied && !cold }

theorem ResetLineLaw.follow_self (law : ResetLineLaw s) (c : Client) :
    follow (s.client c) (s.ctrl (homeOf c)).cold = s.client c := by
  obtain ⟨crst, -, tie⟩ := law c
  have tied : ((s.client c).tied && !(s.ctrl (homeOf c)).cold) = (s.client c).tied := by
    cases tied : (s.client c).tied with
    | false => rfl
    | true => rw [(tie tied).1]; rfl
  unfold follow
  rw [tied, ← crst]

/-- A tie at the home domain that still has its event. -/
def State.tiesWait (s : State) (d : Dom) : Prop :=
  ∀ c, homeOf c = d → (s.client c).tied = true → (s.ctrl d).eventWaits = true

theorem homeClient_homeOf (c : Client) : homeClient (homeOf c) = some c := by
  unfold homeClient homeOf
  rw [dif_pos c.2]

theorem homeOf_of_homeClient {c : Client} (home : homeClient d = some c) : homeOf c = d := by
  unfold homeClient at home
  split at home
  · obtain rfl := Option.some.inj home; rfl
  · cases home

theorem homeOf_inj {c o : Client} (same : homeOf c = homeOf o) : c = o :=
  Option.some.inj ((homeClient_homeOf c).symm.trans ((congrArg homeClient same).trans (homeClient_homeOf o)))

theorem State.syncHome_client (waits : s.tiesWait d) (o : Client) :
    (s.syncHome d).client o = if homeOf o = d then follow (s.client o) (s.ctrl d).cold else s.client o := by
  unfold State.syncHome
  cases home : homeClient d with
  | none =>
    have away : homeOf o ≠ d := fun here => by rw [← here, homeClient_homeOf] at home; cases home
    rw [if_neg away]
  | some c =>
    obtain rfl := homeOf_of_homeClient home
    dsimp only
    rw [State.syncCrst_client]
    by_cases same : o = c
    · subst same
      have tied : s.staysTied o = ((s.client o).tied && !(s.ctrl (homeOf o)).cold) := by
        unfold State.staysTied
        cases tied : (s.client o).tied with
        | false => rfl
        | true => rw [waits o rfl tied]; simp
      rw [if_pos rfl, if_pos rfl, tied]
      rfl
    · rw [if_neg same, if_neg fun here => same (homeOf_inj here)]

theorem State.syncCrst_changes (c : Client) (s : State) :
    (s.syncCrst c).changes = s.changes ++ crstChanges s (s.syncCrst c) := by
  have away (o : Client) (ne : o ≠ c) : (s.syncCrst c).client o = s.client o := by rw [State.syncCrst_client, if_neg ne]
  generalize record : (s.syncCrst c).client c = x
  have moves : crstChanges s (s.syncCrst c) = if (s.client c).crst = x.crst then [] else [.crst c x.crst] := by
    unfold crstChanges
    have only : (fun o => decide (((s.syncCrst c).client o).crst ≠ (s.client o).crst))
        = fun o => decide (o = c ∧ (s.client c).crst ≠ x.crst) := by
      funext o
      by_cases same : o = c
      · subst same; simp [record, eq_comm]
      · simp [away o same, same]
    rw [only]
    by_cases stands : (s.client c).crst = x.crst
    · simp [stands]
    · rw [if_neg stands]
      simp only [stands, ne_eq, not_false_iff, and_true]
      rw [List.filter_eq, List.count_eq_one_of_mem (List.nodup_finRange 4) (List.mem_finRange c)]
      simp [record]
  rw [moves, ← record, State.syncCrst_client, if_pos rfl]
  unfold State.syncCrst
  rw [State.driveCrst_changes, State.setClient_client_self]
  rfl

theorem State.syncHome_changes (d : Dom) (s : State) :
    (s.syncHome d).changes = s.changes ++ crstChanges s (s.syncHome d) := by
  unfold State.syncHome
  split
  · exact State.syncCrst_changes ..
  · simp [crstChanges]

theorem crstChanges_congr {s' t' : State} (before : ∀ c, (s'.client c).crst = (s.client c).crst)
    (after : ∀ c, (t'.client c).crst = (t.client c).crst) : crstChanges s' t' = crstChanges s t := by
  unfold crstChanges
  simp only [before, after]

/-- CRST_N is no output of a domain. -/
theorem outputOf_crstChanges {x : PinChange} (hx : x ∈ crstChanges s t) : outputOf x = none := by
  obtain ⟨c, -, rfl⟩ := List.mem_map.1 hx
  rfl

theorem State.syncHome_pulses (d : Dom) (s : State) : OnlyPulses s (s.syncHome d) := by
  unfold State.syncHome
  split
  · exact State.syncCrst_pulses ..
  · rfl

/-- A client's record with some more home-lost events (R89). -/
def ClientRec.losing (r : ClientRec) (n : Nat) : ClientRec := { r with homeLostPending := r.homeLostPending + n }

theorem State.raiseHomeLost_client (d : Dom) (s : State) (o : Client) :
    (s.raiseHomeLost d).client o = (s.client o).losing (if homeOf o = d then 1 else 0) := by
  unfold State.raiseHomeLost
  cases home : homeClient d with
  | none =>
    have away : homeOf o ≠ d := fun here => by rw [← here, homeClient_homeOf] at home; cases home
    rw [if_neg away]
    rfl
  | some c =>
    obtain rfl := homeOf_of_homeClient home
    by_cases same : o = c
    · subst same; rw [if_pos rfl]; exact State.setClient_client_self ..
    · rw [if_neg fun here => same (homeOf_inj here)]; exact State.setClient_client_ne _ _ _ same

theorem State.raiseHomeLost_clients (d : Dom) (s : State) :
    s.raiseHomeLost d = { s with clients := (s.raiseHomeLost d).clients } := by
  unfold State.raiseHomeLost
  split <;> rfl

/-- Where each client's record has followed its home and the events that waited still wait, `ClientsFollow` holds. -/
theorem clientsFollow_of (law : ResetLineLaw s) {lost : Nat}
    (waits : ∀ e, (s.ctrl e).eventWaits = true → (t.ctrl e).eventWaits = true)
    (client : ∀ c, t.client c
      = (follow (s.client c) (t.ctrl (homeOf c)).cold).losing (if homeOf c = d then lost else 0)) :
    ClientsFollow s t d lost := by
  intro c
  have tied : stillTied s t c = ((s.client c).tied && !(t.ctrl (homeOf c)).cold) := by
    unfold stillTied
    cases tied : (s.client c).tied with
    | false => rfl
    | true =>
      have event := waits (homeOf c) ((law c).2.2 tied).2.2
      simp only [Ctrl.eventWaits, Bool.or_eq_true, or_assoc] at event
      simp [event]
  rw [client, tied]
  rfl

end Follow

end Sys2Proof.Machine

/-! ## A controller event that leaves its domain in a state -/

namespace Sys2Proof.Machine

open Sys2Proof.Statement

section Events

variable {s t w u : State} {d : Dom} {x r : Ctrl} {lost : Nat}

/-- What no passage of a controller touches: all but the state, the timer, the cold flag, the cause and the outputs. -/
def Ctrl.Kept (x r : Ctrl) : Prop :=
  r = { x with state := r.state, timer := r.timer, cold := r.cold, cause := r.cause, pins := r.pins }

theorem Ctrl.Kept.setup (h : x.Kept r) : r.setup = x.setup := by rw [h]
theorem Ctrl.Kept.counts (h : x.Kept r) : r.counts = x.counts := by rw [h]
theorem Ctrl.Kept.derivedDemand (h : x.Kept r) : r.derivedDemand = x.derivedDemand := by rw [h]
theorem Ctrl.Kept.demand (h : x.Kept r) : r.demand = x.demand := by rw [h]; rfl
theorem Ctrl.Kept.eventWaits (h : x.Kept r) : r.eventWaits = x.eventWaits := by rw [h]; rfl

theorem placed_kept (x : Ctrl) (place : DomState × Nat) : x.Kept (placed x place) := rfl

theorem handed_eventWaits {e : Dom} (waits : x.eventWaits = true) : (handed s t e x).eventWaits = true := by
  simp only [Ctrl.eventWaits, Bool.or_eq_true] at waits ⊢
  rw [handed_eq]
  simp only [Bool.or_eq_true]
  tauto

/-! ### What the end of a change hands on, besides the controllers -/

/-- The children, the count and the parent, before CRST_N of the home client. -/
def State.handTree (d : Dom) (before : Reach) (s : State) : State :=
    ((s.tellChildren d before).recount d).recomputeParent d

theorem State.handNeighbours_eq (before : Reach) : s.handNeighbours d before = (s.handTree d before).syncHome d := rfl

theorem State.handTree_control (before : Reach) :
    OnlyControl s (s.handTree d before) ∧ (s.handTree d before).changes = s.changes := by
  obtain ⟨told, changes⟩ := s.tellChildren_control d before
  have parent (t : State) : OnlyControl t (t.recomputeParent d) ∧ (t.recomputeParent d).changes = t.changes := by
    unfold State.recomputeParent
    split <;> exact ⟨rfl, rfl⟩
  have counted (t : State) : OnlyControl t (t.recount d) ∧ (t.recount d).changes = t.changes := ⟨rfl, rfl⟩
  exact ⟨(told.trans (counted _).1).trans (parent _).1, (parent _).2.trans ((counted _).2.trans changes)⟩

theorem State.handNeighbours_client {before : Reach}
    (waits : ∀ c, homeOf c = d → (s.client c).tied = true → ((s.handNeighbours d before).ctrl d).eventWaits = true)
    (o : Client) :
    (s.handNeighbours d before).client o
      = if homeOf o = d then follow (s.client o) ((s.handNeighbours d before).ctrl d).cold else s.client o := by
  have same (c : Client) : (s.handTree d before).client c = s.client c := State.handTree_control before |>.1.client c
  rw [State.handNeighbours_eq, State.syncHome_ctrl] at waits ⊢
  rw [State.syncHome_client fun c home tied => waits c home (by rwa [← same]), same]

theorem State.handNeighbours_queues (before : Reach) : (s.handNeighbours d before).queues = s.queues := by
  rw [State.handNeighbours_eq, (State.syncHome_pulses ..).queues, (State.handTree_control before).1.queues]

theorem State.handNeighbours_changes (before : Reach) :
    (s.handNeighbours d before).changes = s.changes ++ crstChanges s (s.handNeighbours d before) := by
  obtain ⟨control, changes⟩ := State.handTree_control (s := s) (d := d) before
  rw [State.handNeighbours_eq, State.syncHome_changes, changes,
    crstChanges_congr (s := s) (t := (s.handTree d before).syncHome d) (fun c => by rw [control.client]) fun _ => rfl]

/-! ### From the passages to `Moved` -/

/-- The passages of an event have left domain `d` with the record `r`, its outputs driven in their order and GRANTED
sent for a rise; nothing is handed on yet. -/
structure Reached (s w : State) (d : Dom) (r : Ctrl) (lost : Nat) : Prop where
  frame : OnlyDomains s w
  ctrl : ∀ e, w.ctrl e = replaced s.ctrl d r e
  client : ∀ o, w.client o = (s.client o).losing (if homeOf o = d then lost else 0)
  queues : w.queues = (appendAll s (grantNotes s w d)).queues
  changes : w.changes
    = (appendAll { s with changes := s.changes ++ orderedChanges d (s.ctrl d).pins (grantedAt s d r) }
        (grantNotes s w d)).changes
      ++ orderedChanges d (grantedAt s d r) r.pins

theorem Reached.here (h : Reached s w d r lost) : w.ctrl d = r := by rw [h.ctrl, replaced, if_pos rfl]

theorem OnlyDomains.eventFrame (h : OnlyDomains s t) : EventFrame s t := by
  unfold OnlyDomains at h
  rw [h]

theorem Reached.moved (h : Reached s w d r lost) (kept : (s.ctrl d).Kept r) (reset : ResetLineLaw s)
    (forest : ForestLaw s)
    (derived : DerivedLaw s) : Moved s (w.handNeighbours d (effLevel (s.ctrl d).state)) d r lost := by
  obtain ⟨derived, -⟩ := derived
  have holds (e : Dom) : (replaced s.ctrl d r e).derivedDemand = s.derivedFrom e := by
    unfold replaced
    split
    · next here => subst here; rw [kept.derivedDemand, derived]
    · exact derived e
  have hands : Hands s (replaced s.ctrl d { r with counts := r.counted })
      (w.handNeighbours d (effLevel (s.ctrl d).state)) := by
    refine (Hands.refl derived).step (fun e => ?_) kept.setup kept.counts rfl (fun _ _ => rfl)
      (fun p parent => forest.parent_ne parent) ?_ fun p _ => .inl (derived p).symm
    · rw [h.ctrl, handed_self (holds e)]
    · rw [← derived, ← kept.derivedDemand]
  have frame := h.frame.trans (State.handNeighbours_frame (d := d) (before := effLevel (s.ctrl d).state) (s := w))
  have queues := State.handNeighbours_queues (s := w) (d := d) (effLevel (s.ctrl d).state)
  have changes := State.handNeighbours_changes (s := w) (d := d) (effLevel (s.ctrl d).state)
  have client := State.handNeighbours_client (s := w) (d := d) (before := effLevel (s.ctrl d).state)
  generalize w.handNeighbours d (effLevel (s.ctrl d).state) = t at *
  have waits (e : Dom) (event : (s.ctrl e).eventWaits = true) : (t.ctrl e).eventWaits = true := by
    rw [hands e]
    refine handed_eventWaits ?_
    unfold replaced
    split
    · next here => subst here; exact kept.eventWaits.trans event
    · exact event
  have tied (c : Client) (home : homeOf c = d) (tied : (w.client c).tied = true) : (t.ctrl d).eventWaits = true := by
    rw [h.client] at tied
    exact waits d (home ▸ ((reset c).2.2 tied).2.2)
  have state : effLevel (t.ctrl d).state = effLevel (w.ctrl d).state := by
    rw [hands.state, h.here, replaced, if_pos rfl]
  have client (c : Client) : t.client c
      = (follow (s.client c) (t.ctrl (homeOf c)).cold).losing (if homeOf c = d then lost else 0) := by
    rw [client tied, h.client]
    by_cases home : homeOf c = d
    · rw [if_pos home, home]; rfl
    · have cold : (t.ctrl (homeOf c)).cold = (s.ctrl (homeOf c)).cold := by
        rw [hands, handed_cold, replaced, if_neg home]
      rw [if_neg home, cold, reset.follow_self]
  refine ⟨hands, clientsFollow_of reset waits client, ?_, ?_, frame.eventFrame⟩
  · rw [queues, h.queues, grantNotes_congr state]
  · have crst : crstChanges w t = crstChanges s t := crstChanges_congr (fun c => by rw [h.client]; rfl) fun _ => rfl
    rw [changes, h.changes, grantNotes_congr state, crst]

/-! ### The passages of an event and GRANTED -/

theorem orderedChanges_same (d : Dom) (p : Pins) : orderedChanges d p p = [] := by simp [orderedChanges]

/-- GRANTED at the end of the passages of an event (R90). -/
def State.grant (d : Dom) (before : Reach) (s : State) : State :=
  if effLevel (s.ctrl d).state = some .hold then s else s.tellGranted d before

theorem State.event_eq (passage : State → State) :
    s.event d passage
      = ((passage s).grant d (effLevel (s.ctrl d).state)).handNeighbours d (effLevel (s.ctrl d).state) := rfl

theorem OnlyControl.domains (h : OnlyControl s t) : OnlyDomains s t := by
  unfold OnlyControl at h
  rw [h]
  rfl

/-- Passages that make no notice of their own, and do not rise to HOLD, are followed by GRANTED for what they rise to.
-/
theorem Becomes.reached (h : Becomes d r (orderedChanges d (s.ctrl d).pins r.pins) s w)
    (up : effLevel r.state = some .hold → effLevel (s.ctrl d).state ≠ none) :
    Reached s (w.grant d (effLevel (s.ctrl d).state)) d r 0 := by
  have at_ : grantedAt s d r = r.pins := by
    unfold grantedAt
    rw [if_neg fun hold => up hold.2 hold.1]
  have granted : w.grant d (effLevel (s.ctrl d).state) = appendAll w (grantNotes s w d) := by
    unfold State.grant
    split
    · next hold =>
      have fallen : reachRank (effLevel (w.ctrl d).state) ≤ reachRank (effLevel (s.ctrl d).state) := by
        have pos := mt reachRank_zero.1 (up (h.here ▸ hold))
        rw [hold]
        exact Nat.one_le_iff_ne_zero.2 pos
      rw [grantNotes_fallen fallen]
      rfl
    · exact State.tellGranted_notes h.frame.slots
  have notes : grantNotes s (appendAll w (grantNotes s w d)) d = grantNotes s w d :=
    grantNotes_congr (by rw [appendAll_ctrl])
  rw [granted]
  refine ⟨h.frame.domains.trans (appendAll_frame ..).domains, fun e => ?_, fun o => ?_, ?_, ?_⟩
  · rw [appendAll_ctrl, h.ctrl]; rfl
  · rw [appendAll_client, h.frame.client]
    split <;> rfl
  · rw [notes]
    exact appendAll_queues_congr _ h.frame.queues
  · rw [notes, at_, orderedChanges_same, List.append_nil]
    exact ((HeardAlike.of_eq (by exact h.frame.queues) (by exact h.changes)).appendAll _).changes

end Events

end Sys2Proof.Machine

/-! ## The passages of a controller -/

namespace Sys2Proof.Machine

open Sys2Proof.Statement

section Passages

variable {s t w u : State} {d : Dom} {r x y : Ctrl} {xs ys : List PinChange} {place : DomState × Nat} {run : Run}

/-! ### Outputs driven, moving or not (R87, R88) -/

theorem Becomes.refl (at_ : s.ctrl d = r) : Becomes d r [] s s where
  frame := .refl s
  ctrl e := by
    split
    · next here => rw [here, at_]
    · rfl
  changes := (List.append_nil _).symm

theorem Becomes.as (h : Becomes d r xs s t) (record : r = x) (changes : xs = ys) : Becomes d x ys s t :=
  record ▸ changes ▸ h

theorem State.drive_drives (p : Pins) (c : PinChange) (at_ : s.ctrl d = r) :
    Becomes d { r with pins := p } (if r.pins = p then [] else [c]) s (s.drive d p c) := by
  by_cases stands : r.pins = p
  · have still : s.drive d p c = s := by unfold State.drive; rw [at_, if_pos stands]
    rw [if_pos stands, still, ← stands]
    exact .refl at_
  · rw [if_neg stands]
    exact State.drive_becomes at_ stands

theorem State.drivePen_drives (v : Bool) (at_ : s.ctrl d = r) :
    Becomes d { r with pins := { r.pins with pen := v } } (if r.pins.pen = v then [] else [.pen d v]) s
      (s.drivePen d v) := by
  unfold State.drivePen
  rw [at_]
  refine (State.drive_drives _ _ at_).as rfl (if_congr ?_ rfl rfl)
  exact ⟨fun h => by rw [h], fun h => by rw [← h]⟩

theorem State.driveDclk_drives (v : Dclk) (at_ : s.ctrl d = r) :
    Becomes d { r with pins := { r.pins with dclk := v } } (if r.pins.dclk = v then [] else [.dclk d v]) s
      (s.driveDclk d v) := by
  unfold State.driveDclk
  rw [at_]
  refine (State.drive_drives _ _ at_).as rfl (if_congr ?_ rfl rfl)
  exact ⟨fun h => by rw [h], fun h => by rw [← h]⟩

theorem State.driveIso_drives (v : Bool) (at_ : s.ctrl d = r) :
    Becomes d { r with pins := { r.pins with iso := v } } (if r.pins.iso = v then [] else [.iso d v]) s
      (s.driveIso d v) := by
  unfold State.driveIso
  rw [at_]
  refine (State.drive_drives _ _ at_).as rfl (if_congr ?_ rfl rfl)
  exact ⟨fun h => by rw [h], fun h => by rw [← h]⟩

theorem State.driveDrst_drives (v : Bool) (at_ : s.ctrl d = r) :
    Becomes d { r with pins := { r.pins with drst := v } } (if r.pins.drst = v then [] else [.drst d v]) s
      (s.driveDrst d v) := by
  unfold State.driveDrst
  rw [at_]
  refine (State.drive_drives _ _ at_).as rfl (if_congr ?_ rfl rfl)
  exact ⟨fun h => by rw [h], fun h => by rw [← h]⟩

theorem State.setCold_becomes (v : Bool) (at_ : s.ctrl d = r) : Becomes d { r with cold := v } [] s (s.setCold d v) :=
  State.modCtrl_becomes (fun r => { r with cold := v }) at_

/-! ### Where passages lead -/

/-- The outputs of a domain in HELD, or at HOLD in LINGER (R87). -/
def Ctrl.heldRow (r : Ctrl) : Pins := { pen := true, dclk := .stopped, iso := true, drst := r.cold }

/-- The DCLK rate of a running level (R87). -/
def Ctrl.rate (r : Ctrl) : Run → Dclk
  | .slow => .divided r.divisor
  | .full => .undivided

theorem State.rate_eq (at_ : s.ctrl d = r) (run : Run) : s.rate d run = r.rate run := by
  cases run <;> simp [State.rate, Ctrl.rate, at_]

theorem Ctrl.rate_running (r : Ctrl) (run : Run) : .stopped ≠ r.rate run := by cases run <;> nofun

/-- A domain with the record `r` goes to a place, its outputs changing in their order. -/
def Goes (d : Dom) (r : Ctrl) (place : DomState × Nat) (s t : State) : Prop :=
  Becomes d (placed r place) (orderedChanges d r.pins (placed r place).pins) s t

/-- A domain with the record `r` goes into FAULT, its outputs having moved first as `faultedFrom` says. -/
def Fails (d : Dom) (r : Ctrl) (cause : FaultCause) (s t : State) : Prop :=
  ∃ w x, Becomes d x (orderedChanges d r.pins x.pins) s w ∧ x.pins = faultedFrom r cause ∧ r.Kept x
      ∧ t = w.toFault d cause

/-- Passages lead a domain with the record `r` to a place, or into a RECHECK fault. -/
def Leads (d : Dom) (r : Ctrl) (place : DomState × Nat) (s t : State) : Prop :=
  if place.1 = .fault then Fails d r .recheck s t else Goes d r place s t

theorem Leads.goes (h : Leads d r place s t) (whole : place.1 ≠ .fault) : Goes d r place s t := by
  unfold Leads at h
  rwa [if_neg whole] at h

theorem Goes.leads (h : Goes d r place s t) (whole : place.1 ≠ .fault) : Leads d r place s t := by
  unfold Leads
  rwa [if_neg whole]

theorem Becomes.permits_stand (h : Becomes d x xs s t) (at_ : s.ctrl d = r) (kept : r.Kept x)
    (irrefl : r.setup.parent ≠ some d) : t.permits d = s.permits d := by
  subst at_
  exact h.permits kept.setup irrefl

/-! ### Falling (R84 to R86) -/

theorem State.toDischarge_goes (at_ : s.ctrl d = r) (row : r.pins = r.heldRow) :
    Goes d r (.discharge, r.setup.discharge) s (s.toDischarge d) := by
  have entered := State.enter_becomes .discharge r.setup.discharge at_
  have cooled := entered.trans (State.setCold_becomes true entered.here)
  have reset := cooled.trans (State.driveDrst_drives true cooled.here)
  have unpowered := reset.trans (State.drivePen_drives false reset.here)
  unfold State.toDischarge
  rw [at_]
  refine unpowered.as ?_ ?_
  · simp [placed, rowPins, row, Ctrl.heldRow, Pins.offRow]
  · cases cold : r.cold <;> simp [placed, rowPins, row, cold, Ctrl.heldRow, Pins.offRow, orderedChanges]

theorem State.toLingerHold_goes (at_ : s.ctrl d = r) (row : r.pins = r.heldRow) :
    Goes d r (lingerHoldPlace r) s (s.toLingerHold d) := by
  have entered := State.enter_becomes (.linger .hold) r.setup.linger at_
  unfold State.toLingerHold lingerHoldPlace
  dsimp only
  rw [at_, entered.here]
  dsimp only
  split
  · exact (entered.trans (State.toDischarge_goes entered.here row)).as rfl rfl
  · refine entered.as ?_ ?_
    · simp [placed, rowPins, row, Ctrl.heldRow]
    · simp [placed, rowPins, row, Ctrl.heldRow, orderedChanges]

/-! ### Rising (R79 to R82) -/

/-- Where the end of a settle time leads (R82, R111). -/
def settledPlace (r : Ctrl) (run : Run) : DomState × Nat :=
  if r.setup.monitor = false ∧ r.pgood = false then (.fault, 0) else (run.state, 0)

theorem Run.state_ne_fault (run : Run) : run.state ≠ .fault := by cases run <;> nofun

/-- The outputs of a domain that is STARTING (R87). -/
def Ctrl.startRow (r : Ctrl) (run : Run) : Pins := { r.heldRow with dclk := r.rate run }

/-- Past its recheck the start is made (R82, R88). -/
theorem State.completeStart_goes (at_ : s.ctrl d = r) (row : r.pins = r.startRow run)
    (present : ¬ (r.setup.monitor = false ∧ r.pgood = false)) : Goes d r (run.state, 0) s (s.completeStart d run) := by
  have released := State.driveDrst_drives false at_
  have warm := released.trans (State.setCold_becomes false released.here)
  have joined := warm.trans (State.driveIso_drives false warm.here)
  have entered := joined.trans (State.enter_becomes run.state 0 joined.here)
  unfold State.completeStart
  rw [at_, if_neg present]
  refine entered.as ?_ ?_
  · cases run <;> simp [placed, rowPins, row, Ctrl.startRow, Ctrl.heldRow, Ctrl.rate, Run.state]
  · cases cold : r.cold <;> cases run <;>
      simp [placed, rowPins, row, cold, Ctrl.startRow, Ctrl.heldRow, Ctrl.rate, Run.state, orderedChanges]

/-- The settle end (R82, R111). -/
theorem State.completeStart_leads (at_ : s.ctrl d = r) (state : r.state = .starting run)
    (row : r.pins = r.startRow run) :
    Leads d r (settledPlace r run) s (s.completeStart d run) := by
  by_cases absent : r.setup.monitor = false ∧ r.pgood = false
  · have failed : s.completeStart d run = s.toFault d .recheck := by
      unfold State.completeStart
      rw [at_, if_pos absent]
    unfold Leads settledPlace
    rw [if_pos absent, if_pos rfl, failed]
    refine ⟨s, r, (Becomes.refl at_).as rfl (orderedChanges_same ..).symm, ?_, rfl, rfl⟩
    simp [faultedFrom, state]
  · unfold settledPlace
    rw [if_neg absent]
    exact (State.completeStart_goes at_ row absent).leads run.state_ne_fault

/-- The start from HELD, and its end where the settle time is 0 (R81, R82, R111). -/
theorem State.toStarting_leads (at_ : s.ctrl d = r) (held : r.state = .held) (row : r.pins = r.heldRow)
    (demand : r.demand = some run.level) : Leads d r (startPlace r run) s (s.toStarting d run) := by
  have clocked := State.driveDclk_drives (r.rate run) at_
  have entered := clocked.trans (State.enter_becomes (.starting run) r.setup.settle clocked.here)
  have stopped : r.pins.dclk ≠ r.rate run := by rw [row]; exact r.rate_running run
  rw [if_neg stopped] at entered
  unfold State.toStarting
  dsimp only
  rw [State.rate_eq at_, clocked.here]
  dsimp only
  rw [entered.here]
  dsimp only
  unfold startPlace
  by_cases settle : r.setup.settle = 0
  · rw [if_pos settle, if_neg (not_not.2 settle)]
    rw [settle] at entered ⊢
    by_cases absent : r.setup.monitor = false ∧ r.pgood = false
    · unfold Leads
      rw [if_pos absent, if_pos rfl]
      refine ⟨_, _, entered.as rfl ?_, ?_, rfl, ?_⟩
      · simp [orderedChanges, Ne.symm stopped]
      · cases run <;> simp [faultedFrom, held, demand, Run.level, Ctrl.rate]
      · unfold State.completeStart
        rw [entered.here, if_pos absent]
    · rw [if_neg absent]
      refine Goes.leads ?_ run.state_ne_fault
      have row' : { r.pins with dclk := r.rate run } = r.startRow run := by rw [row]; rfl
      refine (entered.trans (State.completeStart_goes entered.here row' absent)).as rfl ?_
      cases run <;> simp [placed, rowPins, row, Ctrl.heldRow, Ctrl.rate, Run.state, orderedChanges]
  · rw [if_neg settle, if_pos settle]
    refine Goes.leads ?_ nofun
    refine entered.as ?_ ?_
    · cases run <;> simp [placed, rowPins, row, Ctrl.heldRow, Ctrl.rate]
    · cases run <;> simp [placed, rowPins, row, Ctrl.heldRow, Ctrl.rate, orderedChanges]

theorem heldPlace_run (demand : r.demand = some run.level) (permitted : Bool) :
    heldPlace r permitted = if permitted then startPlace r run else (.held, 0) := by
  unfold heldPlace
  rw [demand]
  cases run <;> rfl

/-- A demand that starts nothing ends in no fault. -/
theorem heldPlace_whole (low : r.demand = none ∨ r.demand = some .hold) (permitted : Bool) :
    (heldPlace r permitted).1 ≠ .fault := by
  unfold heldPlace lingerHoldPlace
  rcases low with demand | demand <;> rw [demand] <;> dsimp only
  · split <;> nofun
  · nofun

/-- The demand that a domain in HELD compares: none, HOLD or that of a running level. -/
theorem reach_cases (m : Reach) : m = none ∨ m = some .hold ∨ ∃ run : Run, m = some run.level := by
  rcases m with _ | _ | _ | _
  · exact .inl rfl
  · exact .inr (.inl rfl)
  · exact .inr (.inr ⟨.slow, rfl⟩)
  · exact .inr (.inr ⟨.full, rfl⟩)

theorem Goes.stay (at_ : s.ctrl d = r) (row : r.pins = (placed r (r.state, r.timer)).pins)
    (cold : (placed r (r.state, r.timer)).cold = r.cold) : Goes d r (r.state, r.timer) s s := by
  unfold Goes
  rw [← row, orderedChanges_same]
  refine (Becomes.refl at_).as ?_ rfl
  have same : placed r (r.state, r.timer)
      = { r with cold := (placed r (r.state, r.timer)).cold, pins := (placed r (r.state, r.timer)).pins } := rfl
  rw [same, ← row, cold]

/-- A domain in HELD compares its demand (R80). -/
theorem State.heldCompare_leads (at_ : s.ctrl d = r) (held : r.state = .held) (timer : r.timer = 0)
    (row : r.pins = r.heldRow) : Leads d r (heldPlace r (s.permits d)) s (s.heldCompare d) := by
  have demand_eq : s.demand d = r.demand := by unfold State.demand; rw [at_]
  have stays : Leads d r (.held, 0) s s := by
    rw [← held, ← timer]
    refine (Goes.stay at_ ?_ ?_).leads (by rw [held]; nofun)
    · simp [placed, rowPins, held, row, Ctrl.heldRow]
    · simp [placed, held]
  rcases reach_cases r.demand with demand | demand | ⟨run, demand⟩
  · have whole := heldPlace_whole (.inl demand) (s.permits d)
    have place : heldPlace r (s.permits d) = lingerHoldPlace r := by unfold heldPlace; rw [demand]
    have step : s.heldCompare d = s.toLingerHold d := by unfold State.heldCompare; rw [demand_eq, demand]
    rw [place] at whole ⊢
    rw [step]
    exact (State.toLingerHold_goes at_ row).leads whole
  · have place : heldPlace r (s.permits d) = (.held, 0) := by unfold heldPlace; rw [demand]
    have step : s.heldCompare d = s := by unfold State.heldCompare; rw [demand_eq, demand]
    rw [place, step]
    exact stays
  · rw [heldPlace_run demand, State.heldCompare_run (demand_eq.trans demand)]
    cases s.permits d with
    | false => exact stays
    | true => exact State.toStarting_leads at_ held row demand

end Passages

end Sys2Proof.Machine

/-! ## The end of a linger, of a settle time and of a discharge -/

namespace Sys2Proof.Machine

open Sys2Proof.Statement

section Ends

variable {s t w u : State} {d : Dom} {r x y : Ctrl} {xs ys : List PinChange} {place : DomState × Nat} {run : Run}

/-! ### From HOLD in LINGER (R84, R85) -/

theorem faultedFrom_rising (state : r.state = .held ∨ r.state = .linger .hold) :
    faultedFrom r .recheck
      = { r.pins with dclk := if r.demand = some .full then .undivided else .divided r.divisor } := by
  unfold faultedFrom
  rw [if_pos ⟨rfl, state⟩]

/-- A domain that has entered HELD, its outputs as they stood at HOLD in LINGER, goes where HELD leads. -/
theorem Leads.of_held (entered : Becomes d { r with state := .held, timer := 0 } [] s u)
    (state : r.state = .linger .hold)
    (h : Leads d { r with state := .held, timer := 0 } place u t) : Leads d r place s t := by
  unfold Leads at h ⊢
  split
  · next fault =>
    rw [if_pos fault] at h
    obtain ⟨w, x, moves, pins, kept, rfl⟩ := h
    refine ⟨w, x, entered.trans moves, pins.trans ?_, kept, rfl⟩
    rw [faultedFrom_rising (.inl rfl), faultedFrom_rising (.inr state)]
    rfl
  · next whole =>
    rw [if_neg whole] at h
    exact entered.trans h

theorem State.toHeld_leads (at_ : s.ctrl d = r) (state : r.state = .linger .hold) (row : r.pins = r.heldRow)
    (irrefl : r.setup.parent ≠ some d) : Leads d r (heldPlace r (s.permits d)) s (s.toHeld d) := by
  have entered := State.enter_becomes .held 0 at_
  have permits := entered.permits_stand at_ rfl irrefl
  rw [← permits]
  exact (State.heldCompare_leads entered.here rfl rfl row).of_held entered state

/-- A demand that starts nothing takes a domain to HELD, or on to LINGER at HOLD and beyond (R80). -/
theorem State.toHeld_goes (at_ : s.ctrl d = r) (row : r.pins = r.heldRow)
    (low : r.demand = none ∨ r.demand = some .hold)
    (irrefl : r.setup.parent ≠ some d) : Goes d r (heldPlace r (s.permits d)) s (s.toHeld d) := by
  have entered := State.enter_becomes .held 0 at_
  have permits := entered.permits_stand at_ rfl irrefl
  have leads := State.heldCompare_leads entered.here rfl rfl row
  rw [permits] at leads
  exact entered.trans (leads.goes (heldPlace_whole low _))

/-! ### From a running level (R83 to R85, R88) -/

/-- The outputs of a domain at a running level (R87). -/
def Ctrl.runRow (r : Ctrl) (run : Run) : Pins := { pen := true, dclk := r.rate run, iso := false, drst := false }

theorem heldPlace_low (low : r.demand = none ∨ r.demand = some .hold) (permitted : Bool) :
    heldPlace r permitted = (.held, 0) ∨ heldPlace r permitted = (.linger .hold, r.setup.linger)
      ∨ heldPlace r permitted = (.discharge, r.setup.discharge) := by
  unfold heldPlace lingerHoldPlace
  rcases low with demand | demand <;> rw [demand] <;> dsimp only
  · split
    · exact .inr (.inr rfl)
    · exact .inr (.inl rfl)
  · exact .inl rfl

theorem State.leaveRunning_goes (at_ : s.ctrl d = r) (row : r.pins = r.runRow run) (warm : r.cold = false)
    (low : r.demand = none ∨ r.demand = some .hold) (irrefl : r.setup.parent ≠ some d) :
    Goes d r (heldPlace r (s.permits d)) s (s.leaveRunning d) := by
  have isolated := State.driveIso_drives true at_
  have halted := isolated.trans (State.driveDclk_drives .stopped isolated.here)
  have permits := halted.permits_stand at_ rfl irrefl
  have held := State.toHeld_goes halted.here (by simp [row, Ctrl.runRow, Ctrl.heldRow, warm]) low irrefl
  rw [permits] at held
  refine (halted.trans (show Goes d _ (heldPlace r (s.permits d)) _ _ from held)).as rfl ?_
  have running := (r.rate_running run).symm
  rcases heldPlace_low low (s.permits d) with place | place | place
  all_goals
    rw [place]
    simp [placed, rowPins, row, warm, running, running.symm, Ctrl.runRow, Pins.offRow, orderedChanges]

/-- Between running levels, lingering or not (R83 to R85). -/
theorem State.toRun_goes {from_ : Run} (at_ : s.ctrl d = r) (row : r.pins = r.runRow from_) (warm : r.cold = false)
    (run : Run) :
    Goes d r (run.state, 0) s (s.toRun d run) := by
  have entered := State.enter_becomes run.state 0 at_
  have clocked := entered.trans (State.driveDclk_drives (r.rate run) entered.here)
  unfold State.toRun
  rw [State.rate_eq at_]
  refine clocked.as ?_ ?_
  · cases run <;> simp [placed, rowPins, row, warm, Ctrl.runRow, Ctrl.rate, Run.state]
  · cases run <;> cases from_ <;> simp [placed, rowPins, row, Ctrl.runRow, Ctrl.rate, Run.state, orderedChanges]

/-- The end of a linger at a running level, or its cancel (R84, R85). -/
theorem State.leaveLinger_run_goes (at_ : s.ctrl d = r) (row : r.pins = r.runRow run) (warm : r.cold = false)
    (irrefl : r.setup.parent ≠ some d) : Goes d r (fallPlace r (s.permits d)) s (s.leaveLinger d run.level) := by
  have demand_eq : s.demand d = r.demand := by unfold State.demand; rw [at_]
  unfold fallPlace State.leaveLinger
  rw [demand_eq]
  rcases reach_cases r.demand with demand | demand | ⟨to_, demand⟩
  · rw [demand]
    cases run <;> exact State.leaveRunning_goes at_ row warm (.inl demand) irrefl
  · rw [demand]
    cases run <;> exact State.leaveRunning_goes at_ row warm (.inr demand) irrefl
  · rw [demand]
    cases to_ with
    | slow => cases run <;> exact State.toRun_goes at_ row warm .slow
    | full => cases run <;> exact State.toRun_goes at_ row warm .full

theorem fallPlace_whole (permitted : Bool) : (fallPlace r permitted).1 ≠ .fault := by
  unfold fallPlace
  rcases reach_cases r.demand with demand | demand | ⟨run, demand⟩
  · rw [demand]; exact heldPlace_whole (.inl demand) _
  · rw [demand]; exact heldPlace_whole (.inr demand) _
  · rw [demand]; cases run <;> nofun

/-- The end of a linger, or its cancel (R84, R85). -/
theorem State.leaveLinger_leads {l : Level} (at_ : s.ctrl d = r) (state : r.state = .linger l)
    (sound : ctrlSound r = true)
    (irrefl : r.setup.parent ≠ some d) : Leads d r (lingerPlace r (s.permits d) l) s (s.leaveLinger d l) := by
  have demand_eq : s.demand d = r.demand := by unfold State.demand; rw [at_]
  simp only [ctrlSound, Bool.and_eq_true, decide_eq_true_eq] at sound
  obtain ⟨⟨⟨⟨⟨⟨pins, cold⟩, -⟩, -⟩, -⟩, -⟩, -⟩ := sound
  rw [rowPins, state] at pins
  rw [coldSound, state] at cold
  cases l with
  | hold =>
    unfold State.leaveLinger lingerPlace
    rw [demand_eq]
    cases demand : r.demand with
    | none => rw [if_pos rfl]; exact (State.toDischarge_goes at_ pins).leads nofun
    | some m => rw [if_neg nofun]; exact State.toHeld_leads at_ state pins irrefl
  | slow =>
    exact (State.leaveLinger_run_goes (run := .slow) at_ pins (by simpa using cold) irrefl).leads (fallPlace_whole _)
  | full =>
    exact (State.leaveLinger_run_goes (run := .full) at_ pins (by simpa using cold) irrefl).leads (fallPlace_whole _)

end Ends

end Sys2Proof.Machine

/-! ## Powering a domain, and GRANTED of HOLD on the way -/

namespace Sys2Proof.Machine

open Sys2Proof.Statement

section Powering

variable {s t v w : State} {d : Dom} {r x : Ctrl} {xs : List PinChange} {lost : Nat}

theorem startPlace_present (present : r.pgood = true) (run : Run) :
    startPlace r run = (.starting run, r.setup.settle) ∨ startPlace r run = (run.state, 0) := by
  unfold startPlace
  split
  · exact .inl rfl
  · simp [present]

/-- Where a demand takes a domain in HELD with PGOOD present: it stays, starts or runs (R80 to R82). -/
theorem heldPlace_present (present : r.pgood = true) (wanted : r.demand ≠ none) (permitted : Bool) :
    heldPlace r permitted = (.held, 0)
      ∨ ∃ run, heldPlace r permitted = (.starting run, r.setup.settle) ∨ heldPlace r permitted = (run.state, 0) := by
  rcases reach_cases r.demand with demand | demand | ⟨run, demand⟩
  · exact absurd demand wanted
  · unfold heldPlace; rw [demand]; exact .inl rfl
  · rw [heldPlace_run demand]
    cases permitted with
    | false => exact .inl rfl
    | true => exact .inr ⟨run, startPlace_present present run⟩

theorem grantNotes_start (slots : t.slots = s.slots) (level : effLevel (t.ctrl d).state = effLevel (s.ctrl d).state) :
    grantNotes t w d = grantNotes s w d := by
  unfold grantNotes
  simp only [toOwners_congr slots, State.leases_congr slots, level]

/-- The end of POWERING as a whole: HELD without a notice on the way, or GRANTED of HOLD before what follows (R79,
R90). -/
theorem State.endPowering_eq (s : State) (d : Dom) :
    s.endPowering d
      = if effLevel (((s.toHeld d).ctrl d).state) = some .hold then
          ((s.enter d .held 0).tellGranted d none).heldCompare d
        else s.toHeld d := rfl

theorem State.toPowering_rose (at_ : s.ctrl d = r) (off : r.pins = Pins.offRow) (high : r.pgood = true) :
    s.toPowering d = (s.ramped d).endPowering d := by
  have same : ((s.ramped d).ctrl d).pgood = true := by rw [(State.ramped_becomes at_ off).here]; exact high
  change (if ((s.ramped d).ctrl d).pgood = true then (s.ramped d).endPowering d else s.ramped d) = _
  rw [if_pos same]

/-- Passages that rise to HOLD and go on from there have sent GRANTED of HOLD in between (R76, R90). -/
theorem Becomes.reached_hold {y : Ctrl}
    (entered : Becomes d y (orderedChanges d (s.ctrl d).pins (grantedAt s d x)) s v)
    (risen : effLevel y.state = some .hold)
    (last : Becomes d x (orderedChanges d (grantedAt s d x) x.pins) (appendAll v (grantNotes s v d)) w)
    (hold : effLevel x.state = some .hold) : Reached s (w.grant d (effLevel (s.ctrl d).state)) d x 0 := by
  have heard : HeardAlike (appendAll { s with
      changes := s.changes ++ orderedChanges d (s.ctrl d).pins (grantedAt s d x) } (grantNotes s v d))
      (appendAll v (grantNotes s v d)) :=
    (HeardAlike.of_eq (by exact entered.frame.queues) (by exact entered.changes)).appendAll _
  have silent : w.grant d (effLevel (s.ctrl d).state) = w := by
    unfold State.grant
    rw [last.here, if_pos hold]
  have notes : grantNotes s w d = grantNotes s v d := grantNotes_congr (by rw [last.here, hold, entered.here, risen])
  rw [silent]
  refine ⟨entered.frame.domains.trans ((appendAll_frame ..).domains.trans last.frame.domains), fun e => ?_, fun o => ?_,
    ?_, ?_⟩
  · rw [last.ctrl, appendAll_ctrl, entered.ctrl]
    unfold replaced
    split <;> rfl
  · rw [last.frame.client, appendAll_client, entered.frame.client]
    split <;> rfl
  · rw [last.frame.queues, notes]
    exact appendAll_queues_congr _ entered.frame.queues
  · rw [last.changes, notes, heard.changes]

/-- The outputs of a cold domain that is powered, up to the start of its clock (R87). -/
def coldRow : Pins := { pen := true, dclk := .stopped, iso := true, drst := true }

/-- Before its clock starts a domain that rises from a cold state has the outputs of HELD (R90). -/
theorem grantedAt_cold (at_ : s.ctrl d = r) (cold : r.cold = true) (low : effLevel r.state = none)
    {place : DomState × Nat}
    (place_eq : place = (.held, 0) ∨ ∃ run, place = (.starting run, r.setup.settle) ∨ place = (run.state, 0))
    (hold : effLevel (placed r place).state = some .hold) : grantedAt s d (placed r place) = coldRow := by
  unfold grantedAt coldRow
  rw [at_, if_pos ⟨low, hold⟩]
  rcases place_eq with rfl | ⟨run, rfl | rfl⟩
  · simp [placed, rowPins, cold]
  · cases run <;> simp [placed, rowPins, cold]
  · cases run <;> cases hold

/-- A domain powered: POWERING, or with PGOOD present HELD and what follows, GRANTED of HOLD in its place (R79, R80,
R90). -/
theorem State.toPowering_reached (at_ : s.ctrl d = r) (off : r.pins = Pins.offRow) (cold : r.cold = true)
    (low : effLevel r.state = none) (wanted : r.demand ≠ none) (irrefl : r.setup.parent ≠ some d) :
    Reached s ((s.toPowering d).grant d (effLevel (s.ctrl d).state)) d (placed r (powerPlace r (s.permits d))) 0 := by
  have ramped := State.ramped_becomes at_ off
  cases pgood : r.pgood with
  | false =>
    have place : powerPlace r (s.permits d) = (.powering, r.setup.ramp) := by unfold powerPlace; simp [pgood]
    rw [State.toPowering_ramps at_ off pgood, place]
    refine Becomes.reached (ramped.as rfl ?_) nofun
    simp [at_, off, placed, rowPins, orderedChanges, Pins.offRow]
  | true =>
    have place : powerPlace r (s.permits d) = heldPlace r (s.permits d) := by unfold powerPlace; simp [pgood]
    have entered : Becomes d { r with state := .held, timer := 0, pins := coldRow } [.pen d true] s
        ((s.ramped d).enter d .held 0) :=
      (ramped.trans (State.enter_becomes .held 0 ramped.here)).as (by simp [coldRow, cold]) rfl
    have permits := entered.permits_stand at_ rfl irrefl
    have places := heldPlace_present pgood wanted (s.permits d)
    have whole : (heldPlace r (s.permits d)).1 ≠ .fault := by
      rcases places with place | ⟨run, place | place⟩ <;> rw [place]
      · nofun
      · nofun
      · exact run.state_ne_fault
    have held {u : State} (here : u.ctrl d = (((s.ramped d).enter d .held 0).ctrl d))
        (same : u.permits d = s.permits d) :
        Becomes d (placed r (heldPlace r (s.permits d)))
          (orderedChanges d coldRow (placed r (heldPlace r (s.permits d))).pins) u (u.heldCompare d) := by
      have leads := State.heldCompare_leads (here.trans entered.here) rfl rfl (by simp [coldRow, Ctrl.heldRow, cold])
      rw [same] at leads
      exact leads.goes whole
    have risen := entered.trans (held rfl permits)
    rw [State.toPowering_rose at_ off pgood, place, State.endPowering_eq]
    split
    · next hold =>
      have hold : effLevel (placed r (heldPlace r (s.permits d))).state = some .hold := risen.here ▸ hold
      have told : ((s.ramped d).enter d .held 0).tellGranted d none
          = appendAll ((s.ramped d).enter d .held 0) (grantNotes s ((s.ramped d).enter d .held 0) d) := by
        rw [← State.tellGranted_notes entered.frame.slots, at_, low]
      have outputs := grantedAt_cold at_ cold low places hold
      rw [told]
      refine Becomes.reached_hold (entered.as rfl ?_) rfl ?_ hold
      · rw [outputs, at_, off]; rfl
      · rw [outputs]
        refine held (appendAll_ctrl ..) ?_
        rw [← permits]
        unfold State.permits
        simp only [appendAll_ctrl]
    · next above =>
      refine Becomes.reached (risen.as rfl ?_) fun hold => absurd (risen.here ▸ hold) above
      rcases places with place | ⟨run, place | place⟩
      · simp [place, at_, off, placed, rowPins, orderedChanges, Pins.offRow, coldRow]
      · cases run <;> simp [place, at_, off, placed, rowPins, orderedChanges, Pins.offRow, coldRow]
      · cases run <;> simp [place, at_, off, placed, rowPins, orderedChanges, Pins.offRow, coldRow, Run.state]

/-- The event of a home that is lost first makes no difference to where the domain goes (R89). -/
theorem Reached.of_lost (entered : Becomes d x [] s v) (pins : x.pins = (s.ctrl d).pins)
    (level : effLevel x.state = effLevel (s.ctrl d).state) (h : Reached (v.raiseHomeLost d) w d r 0) :
    Reached s w d r 1 := by
  have clients := State.raiseHomeLost_clients d v
  have ctrl (e : Dom) : (v.raiseHomeLost d).ctrl e = if e = d then x else s.ctrl e := by
    rw [State.raiseHomeLost_ctrl, entered.ctrl]
  have here : (v.raiseHomeLost d).ctrl d = x := by rw [ctrl, if_pos rfl]
  have slots : (v.raiseHomeLost d).slots = s.slots := by rw [clients]; exact entered.frame.slots
  have queues : (v.raiseHomeLost d).queues = s.queues := by rw [clients]; exact entered.frame.queues
  have changes : (v.raiseHomeLost d).changes = s.changes := by
    rw [clients]; exact entered.changes.trans (List.append_nil _)
  have frame : OnlyDomains s (v.raiseHomeLost d) := entered.frame.domains.trans (by unfold OnlyDomains; rw [clients])
  have notes : grantNotes (v.raiseHomeLost d) w d = grantNotes s w d := grantNotes_start slots (by rw [here, level])
  have granted : grantedAt (v.raiseHomeLost d) d r = grantedAt s d r := by
    unfold grantedAt
    rw [here, level]
  refine ⟨frame.trans h.frame, fun e => ?_, fun o => ?_, ?_, ?_⟩
  · rw [h.ctrl]
    unfold replaced
    split
    · rfl
    · next other => rw [ctrl, if_neg other]
  · rw [h.client, State.raiseHomeLost_client, entered.frame.client]
    split <;> rfl
  · rw [h.queues, notes]
    exact appendAll_queues_congr _ queues
  · rw [h.changes, notes, granted, here, pins]
    exact congrArg (· ++ _)
      ((HeardAlike.of_eq (by exact queues) (by exact congrArg (· ++ _) changes)).appendAll _).changes

/-- The end of DISCHARGE: OFF, and with a demand up again (R78, R86). -/
theorem State.toOff_reached (at_ : s.ctrl d = r) (off : r.pins = Pins.offRow) (cold : r.cold = true)
    (low : effLevel r.state = none) (irrefl : r.setup.parent ≠ some d) :
    Reached s ((s.toOff d).grant d (effLevel (s.ctrl d).state)) d
      (placed r (if r.demand = none then (.off, 0) else powerPlace r (s.permits d))) 1 := by
  have idle := State.enter_becomes .off 0 at_
  have entered : Becomes d { r with state := .off, timer := 0 } [] s ((s.enter d .off 0).setCold d true) :=
    (idle.trans (State.setCold_becomes true idle.here)).as (by rw [← cold]) rfl
  have permits := entered.permits_stand at_ rfl irrefl
  have here : ((((s.enter d .off 0).setCold d true).raiseHomeLost d).ctrl d) = _ :=
    (State.raiseHomeLost_ctrl ..).trans entered.here
  have permits' : (((s.enter d .off 0).setCold d true).raiseHomeLost d).permits d = s.permits d := by
    rw [← permits]
    unfold State.permits
    simp only [State.raiseHomeLost_ctrl]
  have demand : (((s.enter d .off 0).setCold d true).raiseHomeLost d).demand d = r.demand := by
    unfold State.demand; rw [here]; rfl
  have level : effLevel ((((s.enter d .off 0).setCold d true).raiseHomeLost d).ctrl d).state
      = effLevel (s.ctrl d).state := by rw [here, at_, low]; rfl
  have same : s.toOff d = if r.demand = none then ((s.enter d .off 0).setCold d true).raiseHomeLost d
      else (((s.enter d .off 0).setCold d true).raiseHomeLost d).toPowering d := by
    rw [← demand]; rfl
  rw [same, ← level]
  refine Reached.of_lost entered (by rw [at_]) (by rw [at_, low]; rfl) ?_
  split
  · refine Becomes.reached ((Becomes.refl here).as ?_ ?_) nofun
    · simp [placed, rowPins, off, cold]
    · rw [here]; simp [placed, rowPins, off, orderedChanges]
  · next wanted =>
    have up := State.toPowering_reached here off cold rfl wanted irrefl
    rw [permits'] at up
    exact up

end Powering

end Sys2Proof.Machine

/-! ## The timed step of a controller -/

namespace Sys2Proof.Machine

open Sys2Proof.Statement

section TimedStep

variable {s t w : State} {d : Dom} {r : Ctrl}

theorem ctrlSound_iff : ctrlSound r = true ↔
    r.pins = rowPins r ∧ coldSound r = true ∧ (timed r.state = true ∨ r.timer = 0) ∧ r.timer ≤ 255
      ∧ setupSound r.setup = true ∧ (1 ≤ r.divisor ∧ r.divisor ≤ 8) ∧ (r.pgood && r.lossPending) = false := by
  simp only [ctrlSound, Bool.and_eq_true, Bool.or_eq_true, decide_eq_true_eq, Bool.not_eq_true', and_assoc]

theorem ForestLaw.parent_some_ne (law : ForestLaw s) (d : Dom) : (s.ctrl d).setup.parent ≠ some d :=
  fun parent => law.parent_ne parent rfl

/-- The cause of the fault that a timed step makes (R109, R111). -/
def endCause (r : Ctrl) : FaultCause := if r.state = .powering then .ramp else .recheck

/-- The settle end and the linger end lead where the table of chapter 5 says (R82, R85). -/
theorem State.endStep_leads (output : OutputLaw s) (forest : ForestLaw s)
    (state : (∃ run, (s.ctrl d).state = .starting run) ∨ ∃ l, (s.ctrl d).state = .linger l) :
    Leads d (s.ctrl d) (endPlace (s.ctrl d) (s.permits d)) s (s.endStep d) := by
  have sound := output d
  obtain ⟨pins, -⟩ := ctrlSound_iff.1 sound
  have irrefl := forest.parent_some_ne d
  generalize at_ : s.ctrl d = r at *
  rcases state with ⟨run, state⟩ | ⟨l, state⟩
  · rw [rowPins, state] at pins
    have place : endPlace r (s.permits d) = settledPlace r run := by simp [endPlace, state, settledPlace]
    have step : s.endStep d = s.completeStart d run := by simp [State.endStep, at_, state]
    rw [place, step]
    exact State.completeStart_leads at_ state (by rw [pins]; cases run <;> rfl)
  · have place : endPlace r (s.permits d) = lingerPlace r (s.permits d) l := by simp [endPlace, state]
    have step : s.endStep d = s.leaveLinger d l := by simp [State.endStep, at_, state]
    rw [place, step]
    exact State.leaveLinger_leads at_ state sound irrefl

/-- A timed step that ends in FAULT (R109, R111). -/
theorem State.endStep_fails (output : OutputLaw s) (forest : ForestLaw s)
    (fault : (endPlace (s.ctrl d) (s.permits d)).1 = .fault) (ends : timed (s.ctrl d).state = true) :
    Fails d (s.ctrl d) (endCause (s.ctrl d)) s (s.endStep d) := by
  have leads := State.endStep_leads (d := d) output forest
  unfold Leads at leads
  rw [if_pos fault] at leads
  generalize at_ : s.ctrl d = r at *
  cases state : r.state with
  | off | held | slow | full | fault => rw [state] at ends; cases ends
  | powering =>
    have absent : r.pgood = false := by
      simp only [endPlace, state] at fault
      split at fault
      · cases fault
      · next absent => exact Bool.not_eq_true _ ▸ absent
    have step : s.endStep d = s.toFault d .ramp := by simp [State.endStep, at_, state, absent]
    rw [endCause, if_pos state, step]
    exact ⟨s, r, (Becomes.refl at_).as rfl (orderedChanges_same ..).symm, by simp [faultedFrom], rfl, rfl⟩
  | starting run =>
    rw [endCause, if_neg (by rw [state]; nofun)]
    exact leads (.inl ⟨run, state⟩)
  | linger l =>
    rw [endCause, if_neg (by rw [state]; nofun)]
    exact leads (.inr ⟨l, state⟩)
  | discharge =>
    simp only [endPlace, state, powerPlace] at fault
    split at fault
    · cases fault
    · next wanted =>
      split at fault
      · next present =>
        rcases heldPlace_present present wanted (s.permits d) with place | ⟨run, place | place⟩ <;> rw [place] at fault
        · cases fault
        · cases fault
        · exact absurd fault run.state_ne_fault
      · cases fault

/-- A timed step that ends in no fault (R82, R85, R86, R109). -/
theorem State.endStep_reached (output : OutputLaw s) (forest : ForestLaw s)
    (whole : (endPlace (s.ctrl d) (s.permits d)).1 ≠ .fault) (ends : timed (s.ctrl d).state = true) :
    Reached s ((s.endStep d).grant d (effLevel (s.ctrl d).state)) d
      (placed (s.ctrl d) (endPlace (s.ctrl d) (s.permits d))) (if (s.ctrl d).state = .discharge then 1 else 0) := by
  obtain ⟨pins, cold, -⟩ := ctrlSound_iff.1 (output d)
  have leads := State.endStep_leads (d := d) output forest
  have irrefl := forest.parent_some_ne d
  cases state : (s.ctrl d).state with
  | off | held | slow | full | fault => rw [state] at ends; cases ends
  | powering =>
    rw [coldSound, state] at cold
    have present : (s.ctrl d).pgood = true := by
      by_contra absent
      simp [endPlace, state, absent] at whole
    have place : endPlace (s.ctrl d) (s.permits d) = ((s.ctrl d).state, (s.ctrl d).timer) := by
      simp [endPlace, state, present]
    have step : s.endStep d = s := by simp [State.endStep, state, present]
    rw [place, step, if_neg nofun, ← state]
    refine Becomes.reached (Goes.stay rfl ?_ ?_) (by rw [state]; nofun)
    · rw [pins]; simp [placed, rowPins, state]
    · simp [placed, state, cold]
  | starting run =>
    rw [if_neg nofun, ← state]
    exact Becomes.reached ((leads (.inl ⟨run, state⟩)).goes whole) fun _ => by rw [state]; nofun
  | linger l =>
    have level : effLevel (s.ctrl d).state ≠ none := by rw [state]; nofun
    rw [if_neg nofun, ← state]
    exact Becomes.reached ((leads (.inr ⟨l, state⟩)).goes whole) fun _ => level
  | discharge =>
    rw [rowPins, state] at pins
    rw [coldSound, state] at cold
    have place : endPlace (s.ctrl d) (s.permits d)
        = if (s.ctrl d).demand = none then (.off, 0) else powerPlace (s.ctrl d) (s.permits d) := by
      simp [endPlace, state]
    have step : s.endStep d = s.toOff d := by simp [State.endStep, state]
    rw [place, step, if_pos rfl, ← state]
    exact State.toOff_reached rfl pins cold (by rw [state]; rfl) irrefl

/-- The timed step of a domain that ends in no fault, as a whole event (R77). -/
theorem State.endTimer_moved (output : OutputLaw s) (reset : ResetLineLaw s) (forest : ForestLaw s)
    (derived : DerivedLaw s)
    (ends : timed (s.ctrl d).state = true ∧ (s.ctrl d).timer = 0)
    (whole : (endPlace (s.ctrl d) (s.permits d)).1 ≠ .fault) :
    Moved s (s.endTimer d) d (placed (s.ctrl d) (endPlace (s.ctrl d) (s.permits d)))
      (if (s.ctrl d).state = .discharge then 1 else 0) := by
  have event : s.endTimer d
      = ((s.endStep d).grant d (effLevel (s.ctrl d).state)).handNeighbours d (effLevel (s.ctrl d).state) := by
    unfold State.endTimer
    rw [if_pos ends]
    rfl
  rw [event]
  exact (State.endStep_reached output forest whole ends.1).moved (placed_kept ..) reset forest derived

end TimedStep

end Sys2Proof.Machine

/-! ## The forced stop of one domain -/

namespace Sys2Proof.Machine

open Sys2Proof.Statement

section OneStop

variable {s t w : State} {d c : Dom} {x : Ctrl} {L : List Dom}

/-- The changes that move an output of a domain. -/
abbrev outputsOf (xs : List PinChange) : List PinChange := xs.filter (fun x => (outputOf x).isSome)

theorem outputsOf_none {xs : List PinChange} (none : ∀ x ∈ xs, outputOf x = none) : outputsOf xs = [] :=
  List.filter_eq_nil_iff.2 fun x hx => by rw [none x hx]; nofun

theorem outputsOf_ordered (d : Dom) (p q : Pins) : outputsOf (orderedChanges d p q) = orderedChanges d p q :=
  List.filter_eq_self.2 fun x hx => by rw [outputOf_orderedChanges hx]; rfl

theorem outputsOf_append (xs ys : List PinChange) : outputsOf (xs ++ ys) = outputsOf xs ++ outputsOf ys :=
  List.filter_append ..

/-! ### Its passages (R104, R106) -/

/-- Where a stopped domain goes (R104). -/
def stoppedPlace (x : Ctrl) : DomState × Nat := if x.demand = none then lingerHoldPlace x else (.held, 0)

theorem stopped_eq (x : Ctrl) :
    stopped x = { placed x (stoppedPlace x) with counts := decide (2 ≤ reachRank x.demand) } := rfl

theorem stoppedPlace_cases (x : Ctrl) :
    (stoppedPlace x = (.held, 0) ∧ x.demand ≠ none) ∨ stoppedPlace x = (.linger .hold, x.setup.linger)
      ∨ stoppedPlace x = (.discharge, x.setup.discharge) := by
  unfold stoppedPlace lingerHoldPlace
  split
  · split
    · exact .inr (.inr rfl)
    · exact .inr (.inl rfl)
  · next wanted => exact .inl ⟨rfl, wanted⟩

/-- A stopped domain is counted for a demand of SLOW or above only (R97). -/
theorem stoppedPlace_counted (x : Ctrl) : (placed x (stoppedPlace x)).counted = decide (2 ≤ reachRank x.demand) := by
  have demand (place : DomState × Nat) : (placed x place).demand = x.demand := rfl
  unfold Ctrl.counted
  rw [demand]
  rcases stoppedPlace_cases x with ⟨place, -⟩ | place | place <;> rw [place] <;>
    simp [placed, isStarted, show reachRank (some .slow) = 2 from rfl]

/-- The passages of the stop of one domain, before its neighbours are told. -/
def State.halted (d : Dom) (s : State) : State :=
  let s' := (((s.driveIso d true).driveDclk d .stopped).enter d .held 0).tellUngranted d (effLevel (s.ctrl d).state)
  if s'.demand d = none then s'.toLingerHold d else s'

theorem State.stopOne_eq (d : Dom) (s : State) :
    s.stopOne d = (s.halted d).handNeighbours d (effLevel (s.ctrl d).state) := rfl

/-- What the passages of a stop leave. -/
structure Halted (s w : State) (d : Dom) (x : Ctrl) : Prop where
  frame : OnlyDomains s w
  ctrl : ∀ e, w.ctrl e = replaced s.ctrl d (placed x (stoppedPlace x)) e
  client : ∀ o, w.client o = s.client o
  queues : w.queues = (appendAll s (ungrantNotes s d)).queues
  changes : ∃ ys, w.changes = s.changes ++ ys ∧ outputsOf ys = orderedChanges d x.pins (placed x (stoppedPlace x)).pins

/-- The outputs of a started domain before its stop: its clock runs. -/
theorem started_row (started : isStarted x.state = true) (pins : x.pins = rowPins x) (cold : coldSound x = true) :
    x.pins.pen = true ∧ x.pins.dclk ≠ .stopped ∧ x.pins.drst = x.cold := by
  rw [pins]
  cases state : x.state with
  | off | powering | held | discharge | fault => rw [state] at started; cases started
  | starting run => cases run <;> simp [rowPins, state]
  | slow | full => simp [rowPins, coldSound, state] at cold ⊢; exact cold
  | linger l =>
    cases l with
    | hold => rw [state] at started; cases started
    | slow | full => simp [rowPins, coldSound, state] at cold ⊢; exact cold

/-- A stop drives ISO_N and DCLK, and where the domain goes on to DISCHARGE its DRST_N and PEN (R88, R104). -/
theorem orderedChanges_stop (d : Dom) (pen : x.pins.pen = true) (dclk : x.pins.dclk ≠ .stopped)
    (drst : x.pins.drst = x.cold) :
    (if x.pins.iso = true then [] else [.iso d true]) ++ [.dclk d .stopped]
        ++ orderedChanges d x.heldRow (placed x (stoppedPlace x)).pins
      = orderedChanges d x.pins (placed x (stoppedPlace x)).pins := by
  have halts := dclk.symm
  rcases stoppedPlace_cases x with ⟨place, -⟩ | place | place <;> rw [place] <;> cases iso : x.pins.iso <;>
    simp [placed, rowPins, orderedChanges, Ctrl.heldRow, Pins.offRow, pen, drst, iso, halts]

theorem Goes.outputs {r : Ctrl} {place : DomState × Nat} (h : Goes d r place s t) :
    OnlyControl s t ∧ (∀ e, t.ctrl e = replaced s.ctrl d (placed r place) e)
      ∧ t.changes = s.changes ++ orderedChanges d r.pins (placed r place).pins := ⟨h.frame, h.ctrl, h.changes⟩

theorem State.halted_halts (at_ : s.ctrl d = x) (started : isStarted x.state = true) (pins : x.pins = rowPins x)
    (cold : coldSound x = true) : Halted s (s.halted d) d x := by
  obtain ⟨pen, dclk, drst⟩ := started_row started pins cold
  have isolated := State.driveIso_drives true at_
  have clocked := isolated.trans (State.driveDclk_drives .stopped isolated.here)
  have entered : Becomes d { x with state := .held, timer := 0, pins := x.heldRow }
      ((if x.pins.iso = true then [] else [.iso d true]) ++ [.dclk d .stopped]) s
      (((s.driveIso d true).driveDclk d .stopped).enter d .held 0) := by
    refine (clocked.trans (State.enter_becomes .held 0 clocked.here)).as ?_ ?_
    · simp [Ctrl.heldRow, pen, drst]
    · rw [if_neg dclk, List.append_nil]
  unfold State.halted
  generalize ((s.driveIso d true).driveDclk d .stopped).enter d .held 0 = u at entered ⊢
  rw [State.tellUngranted_notes (s := s) entered.frame.slots]
  have queues : (appendAll u (ungrantNotes s d)).queues = (appendAll s (ungrantNotes s d)).queues :=
    appendAll_queues_congr _ entered.frame.queues
  obtain ⟨ys, changes, attn⟩ := appendAll_changes u (ungrantNotes s d)
  have frame : OnlyDomains s (appendAll u (ungrantNotes s d)) :=
    entered.frame.domains.trans (appendAll_frame ..).domains
  have ctrl (e : Dom) : (appendAll u (ungrantNotes s d)).ctrl e
      = replaced s.ctrl d { x with state := .held, timer := 0, pins := x.heldRow } e := by
    rw [appendAll_ctrl]; exact entered.ctrl e
  have client (o : Client) : (appendAll u (ungrantNotes s d)).client o = s.client o := by
    rw [appendAll_client, entered.frame.client]
  have here : (appendAll u (ungrantNotes s d)).ctrl d = { x with state := .held, timer := 0, pins := x.heldRow } := by
    rw [ctrl, replaced, if_pos rfl]
  generalize appendAll u (ungrantNotes s d) = v at *
  have demand : v.demand d = x.demand := by unfold State.demand; rw [here]; rfl
  have goes : Goes d { x with state := .held, timer := 0, pins := x.heldRow } (stoppedPlace x) v
      (if v.demand d = none then v.toLingerHold d else v) := by
    rw [demand]
    unfold stoppedPlace
    split
    · exact State.toLingerHold_goes here rfl
    · exact Goes.stay here rfl rfl
  dsimp only
  generalize (if v.demand d = none then v.toLingerHold d else v) = w at goes ⊢
  obtain ⟨control, ctrl', changes'⟩ := goes.outputs
  refine ⟨frame.trans control.domains, fun e => ?_, fun o => ?_, ?_,
    (if x.pins.iso = true then [] else [.iso d true]) ++ [.dclk d .stopped] ++ ys
      ++ orderedChanges d x.heldRow (placed x (stoppedPlace x)).pins, ?_, ?_⟩
  · rw [ctrl']
    unfold replaced
    split
    · rfl
    · next other => rw [ctrl, replaced, if_neg other]
  · rw [control.client, client]
  · rw [control.queues, queues]
  · rw [changes', changes, entered.changes]
    simp only [List.append_assoc]
    rfl
  · rw [← orderedChanges_stop d pen dclk drst, outputsOf_append, outputsOf_append, outputsOf_none attn, List.append_nil,
      outputsOf_ordered]
    congr 1
    cases x.pins.iso <;> rfl

end OneStop

end Sys2Proof.Machine

/-! ## The forced stop below a domain -/

namespace Sys2Proof.Machine

open Sys2Proof.Statement

section Stops

variable {s t w : State} {c p : Dom} {L : List Dom} {off : Bool}

/-- The records with some domains stopped. -/
def State.halts (s : State) (L : List Dom) : Dom → Ctrl := fun e => if e ∈ L then stopped (s.ctrl e) else s.ctrl e

theorem State.halts_setup (s : State) (L : List Dom) (e : Dom) : (s.halts L e).setup = (s.ctrl e).setup := by
  unfold State.halts; split <;> rfl

theorem State.halts_derived (s : State) (L : List Dom) (e : Dom) :
    (s.halts L e).derivedDemand = (s.ctrl e).derivedDemand := by
  unfold State.halts; split <;> rfl

/-- What a state gives to the stops below one of its domains (R77, R89, R95, R97, R98, R141). -/
structure Stoppable (s : State) : Prop where
  output : OutputLaw s
  forest : ForestLaw s
  derived : ∀ p, (s.ctrl p).derivedDemand = s.derivedFrom p
  counted : ∀ c p, s.parent c = some p → isStarted (s.ctrl c).state = true → (s.ctrl c).counts = true
  waits : ∀ o, (s.client o).tied = true → (s.ctrl (homeOf o)).eventWaits = true

/-- Some domains have been stopped, one after another in their order, from `s` to `t`. -/
structure Stops (s : State) (L : List Dom) (t : State) : Prop where
  frame : OnlyDomains s t
  counted : ∀ e ∈ L, (s.ctrl e).counts = true
  hands : Hands s (s.halts L) t
  client : ∀ o, t.client o = if homeOf o ∈ L then follow (s.client o) (t.ctrl (homeOf o)).cold else s.client o
  queues : t.queues = (appendAll s (L.flatMap (ungrantNotes s))).queues
  changes : ∃ ys, t.changes = s.changes ++ ys
    ∧ outputsOf ys = L.flatMap (fun e => orderedChanges e (s.ctrl e).pins (stopped (s.ctrl e)).pins)

theorem Stops.none (base : Stoppable s) : Stops s [] s where
  frame := .refl s
  counted := nofun
  hands := Hands.refl base.derived
  client _ := rfl
  queues := rfl
  changes := ⟨[], (List.append_nil _).symm, rfl⟩

theorem Stops.setup (h : Stops s L t) (e : Dom) : (t.ctrl e).setup = (s.ctrl e).setup := by
  rw [h.hands.setup, s.halts_setup]

/-- A domain not stopped yet holds its record but for what it was handed. -/
theorem Stops.untouched (h : Stops s L t) (fresh : c ∉ L) : t.ctrl c = handed s t c (s.ctrl c) := by
  rw [h.hands c, State.halts, if_neg fresh]

theorem Stops.counts_le (h : Stops s L t) (e : Dom) (counts : (t.ctrl e).counts = true) : (s.ctrl e).counts = true := by
  by_cases he : e ∈ L
  · exact h.counted e he
  · rwa [h.untouched he] at counts

/-- The demand on a domain of which no child was stopped yet stands. -/
theorem Stops.derivedFrom (h : Stops s L t) (kids : ∀ e ∈ L, s.parent e ≠ some c) :
    t.derivedFrom c = s.derivedFrom c := by
  refine State.derivedFrom_children h.setup fun e child => ?_
  rw [h.untouched fun he => kids e he child]
  rfl

/-- A stop takes a domain where its demand at the beginning of the event leads. -/
theorem Stops.stoppedPlace_stands (h : Stops s L t) (base : Stoppable s) (kids : ∀ e ∈ L, s.parent e ≠ some c) :
    stoppedPlace (handed s t c (s.ctrl c)) = stoppedPlace (s.ctrl c) := by
  unfold stoppedPlace Ctrl.demand
  rw [handed_derivedDemand, h.derivedFrom kids, ← base.derived]
  rfl

theorem Stops.halted (h : Stops s L t) (base : Stoppable s) (fresh : c ∉ L)
    (started : isStarted (s.ctrl c).state = true) : Halted t (t.halted c) c (handed s t c (s.ctrl c)) := by
  obtain ⟨pins, cold, -⟩ := ctrlSound_iff.1 (base.output c)
  exact State.halted_halts (h.untouched fresh) started pins cold

/-- What one more stop hands on. -/
theorem Stops.stop_hands (h : Stops s L t) (base : Stoppable s) (fresh : c ∉ L) (kids : ∀ e ∈ L, s.parent e ≠ some c)
    (parent : s.parent c = some p) (started : isStarted (s.ctrl c).state = true) :
    Hands s (s.halts (L ++ [c])) (t.stopOne c) := by
  have halted := h.halted base fresh started
  have level : effLevel (t.ctrl c).state = effLevel (s.ctrl c).state := by rw [h.untouched fresh]; rfl
  have own : s.halts L c = s.ctrl c := if_neg fresh
  have stepped := h.hands.step (s' := s) (v := t.halted c) (c := c) (y := placed (s.ctrl c) (stoppedPlace (s.ctrl c)))
    (fun e => ?_) (by rw [own]; rfl) (by rw [own]; rfl) (by rw [own]) (fun _ _ => rfl) ?_ ?_ fun p _ => .inr ⟨?_, ?_⟩
  · have records : replaced (s.halts L) c { placed (s.ctrl c) (stoppedPlace (s.ctrl c)) with
        counts := (placed (s.ctrl c) (stoppedPlace (s.ctrl c))).counted } = s.halts (L ++ [c]) := by
      funext e
      unfold replaced State.halts
      by_cases here : e = c
      · subst here
        rw [if_pos rfl, if_pos (by simp), stoppedPlace_counted, stopped_eq]
      · simp [here]
    rw [State.stopOne_eq, level, ← records]
    exact stepped
  · rw [halted.ctrl, h.stoppedPlace_stands base kids]
    unfold replaced
    split
    · next here => subst here; rfl
    · exact h.hands e
  · intro q up
    rw [s.halts_setup] at up
    exact base.forest.parent_ne up
  · rw [h.derivedFrom kids, ← base.derived]
    rfl
  · rw [s.halts_derived, base.derived]
    exact State.derivedFrom_le h.setup fun e _ => h.counts_le e
  · rw [own]
    exact fun _ => base.counted c _ parent started

/-- One more stop. -/
theorem Stops.stop (h : Stops s L t) (base : Stoppable s) (fresh : c ∉ L) (kids : ∀ e ∈ L, s.parent e ≠ some c)
    (parent : s.parent c = some p) (started : isStarted (s.ctrl c).state = true) :
    Stops s (L ++ [c]) (t.stopOne c) := by
  have halted := h.halted base fresh started
  have hands := h.stop_hands base fresh kids parent started
  have level : effLevel (t.ctrl c).state = effLevel (s.ctrl c).state := by rw [h.untouched fresh]; rfl
  have frame := h.frame.trans (halted.frame.trans (State.handNeighbours_frame c (effLevel (t.ctrl c).state) _))
  have queues := State.handNeighbours_queues (s := t.halted c) (d := c) (effLevel (t.ctrl c).state)
  have changes := State.handNeighbours_changes (s := t.halted c) (d := c) (effLevel (t.ctrl c).state)
  have client := State.handNeighbours_client (s := t.halted c) (d := c) (before := effLevel (t.ctrl c).state)
  rw [← State.stopOne_eq] at frame queues changes client
  generalize t.stopOne c = u at *
  have cold_stands (e : Dom) (other : e ≠ c) : (u.ctrl e).cold = (t.ctrl e).cold := by
    rw [hands e, h.hands e, handed_cold, handed_cold]
    unfold State.halts
    simp [other]
  have unstopped (o : Client) (home : homeOf o = c) : t.client o = s.client o := by rw [h.client, if_neg (home ▸ fresh)]
  have tied (o : Client) (home : homeOf o = c) (tie : ((t.halted c).client o).tied = true) :
      (u.ctrl c).eventWaits = true := by
    rw [halted.client, unstopped o home] at tie
    rw [hands c]
    refine handed_eventWaits ?_
    have waits := base.waits o tie
    rw [home] at waits
    unfold State.halts
    split <;> exact waits
  refine ⟨frame, fun e he => ?_, hands, fun o => ?_, ?_, ?_⟩
  · rcases List.mem_append.1 he with he | he
    · exact h.counted e he
    · obtain rfl := List.mem_singleton.1 he
      exact base.counted e _ parent started
  · rw [client tied, halted.client]
    by_cases home : homeOf o = c
    · rw [if_pos home, if_pos (by simp [home]), unstopped o home, home]
    · rw [if_neg home, h.client]
      simp [home, cold_stands _ home]
  · rw [queues, halted.queues, List.flatMap_append, appendAll_append, List.flatMap_singleton]
    have slots : t.slots = s.slots := by rw [h.frame]
    rw [ungrantNotes_congr slots level]
    exact appendAll_queues_congr _ h.queues
  · obtain ⟨ys, before, outputs⟩ := h.changes
    obtain ⟨zs, after, outputs'⟩ := halted.changes
    refine ⟨ys ++ zs ++ crstChanges (t.halted c) u, ?_, ?_⟩
    · rw [changes, after, before]
      simp only [List.append_assoc]
    · rw [outputsOf_append, outputsOf_append, outputs, outputs', h.stoppedPlace_stands base kids,
        outputsOf_none fun x hx => outputOf_crstChanges hx, List.append_nil, List.flatMap_append,
        List.flatMap_singleton]
      rfl

end Stops

end Sys2Proof.Machine

/-! ## The forced stop, down the tree -/

namespace Sys2Proof.Machine

open Sys2Proof.Statement

section Descent

variable {s t w : State} {c d e p : Dom} {L : List Dom} {off : Bool}

/-- Whether the stop below `p` reaches its child `c` (R100, R104). -/
def State.cutsOff (s : State) (p : Dom) (off : Bool) (c : Dom) : Bool :=
  decide ((s.ctrl c).setup.parent = some p ∧ isStarted (s.ctrl c).state = true
    ∧ (off = true ∨ (s.ctrl c).setup.need ≠ .hold))

/-- The stops that the children of `p` in a list bring. -/
def State.stopsAmong (s : State) (n : Nat) (p : Dom) (off : Bool) (cs : List Dom) : List Dom :=
  (cs.filter (s.cutsOff p off)).flatMap (fun c => c :: stopsBelow s n c false)

theorem stopsBelow_succ (n : Nat) (p : Dom) (off : Bool) :
    stopsBelow s (n + 1) p off = s.stopsAmong n p off (List.finRange 8) := rfl

theorem State.cutsOff_iff : s.cutsOff p off c = true ↔
    s.parent c = some p ∧ isStarted (s.ctrl c).state = true ∧ (off = true ∨ (s.ctrl c).setup.need ≠ .hold) :=
  decide_eq_true_iff

theorem mem_stopsAmong {n : Nat} {cs : List Dom} :
    e ∈ s.stopsAmong n p off cs ↔ ∃ c ∈ cs, s.cutsOff p off c = true ∧ (e = c ∨ e ∈ stopsBelow s n c false) := by
  simp only [State.stopsAmong, List.mem_flatMap, List.mem_filter, List.mem_cons, and_assoc]

/-- A domain that a stop reaches stands below a child of where the stop begins. -/
theorem under_of_mem_stopsBelow {n : Nat} (he : e ∈ stopsBelow s n p off) :
    ∃ c, s.parent c = some p ∧ s.Under e c := by
  induction n generalizing p off with
  | zero => cases he
  | succ n ih =>
    obtain ⟨c, -, cut, rfl | below⟩ := mem_stopsAmong.1 he
    · exact ⟨e, (State.cutsOff_iff.1 cut).1, .refl⟩
    · obtain ⟨c', up, under⟩ := ih below
      exact ⟨c, (State.cutsOff_iff.1 cut).1, under.tail up⟩

/-- Below `p` exactly the children with another need than HOLD are cut off, or with `off` all of them. -/
def State.Cut (s : State) (L : List Dom) (p : Dom) (off : Bool) : Prop :=
  ∀ c, s.parent c = some p → isStarted (s.ctrl c).state = true →
    (reachRank (some (s.ctrl c).setup.need) ≤ reachRank (effLevel (s.halts L p).state)
      ↔ ¬ (off = true ∨ (s.ctrl c).setup.need ≠ .hold))

theorem State.Cut.congr {M : List Dom} (cut : s.Cut L p off) (same : p ∈ M ↔ p ∈ L) : s.Cut M p off := by
  unfold State.Cut State.halts at *
  simpa only [same] using cut

/-- A stopped domain with a started child has a demand, so it stays in HELD and cuts off the children whose need is
another. -/
theorem Stoppable.cut_stopped (base : Stoppable s) (here : c ∈ L) : s.Cut L c false := by
  intro e child started
  have need := State.need_le_derivedFrom child (base.counted e c child started)
  have wanted : (s.ctrl c).demand ≠ none := fun none => by
    have pos := reachRank_some_pos (s.ctrl e).setup.need
    have rank : reachRank (s.ctrl c).demand = 0 := reachRank_zero.2 none
    rw [Ctrl.demand, reachRank_reachMax, base.derived] at rank
    omega
  have level : effLevel (s.halts L c).state = some .hold := by
    unfold State.halts
    rw [if_pos here, stopped_eq]
    unfold stoppedPlace
    rw [if_neg wanted]
    rfl
  rw [level]
  cases (s.ctrl e).setup.need <;> simp [reachRank]

theorem Stops.permits (h : Stops s L t) (parent : s.parent c = some p) :
    t.permits c = decide (reachRank (some (s.ctrl c).setup.need) ≤ reachRank (effLevel (s.halts L p).state)) := by
  unfold State.permits
  rw [h.setup, show (s.ctrl c).setup.parent = some p from parent]
  dsimp only
  rw [h.hands.state]

/-- What the sweep over the children of `p` does at one of them. -/
def State.stopChild (n : Nat) (p : Dom) (t : State) (c : Dom) : State :=
  if (t.ctrl c).setup.parent = some p ∧ isStarted (t.ctrl c).state = true ∧ t.permits c = false then
    (t.stopOne c).stopChildren n c
  else t

theorem State.stopChildren_succ (n : Nat) (p : Dom) (t : State) :
    t.stopChildren (n + 1) p = (List.finRange 8).foldl (State.stopChild n p) t := rfl

/-- The sweep reaches a child exactly where the stop below `p` does. -/
theorem Stops.reaches (h : Stops s L t) (cut : s.Cut L p off) (fresh : s.parent c = some p → c ∉ L) (n : Nat) :
    t.stopChild n p c = if s.cutsOff p off c = true then (t.stopOne c).stopChildren n c else t := by
  unfold State.stopChild
  refine if_congr ?_ rfl rfl
  rw [State.cutsOff_iff, h.setup]
  refine and_congr_right fun parent => ?_
  rw [h.untouched (fresh parent), handed_state]
  refine and_congr_right fun started => ?_
  rw [h.permits parent, decide_eq_false_iff_not, cut c parent started, not_not]

/-- The stops below a domain are made as `stopsBelow` lists them (R104, R105). -/
theorem Stops.below (base : Stoppable s) (n : Nat) (h : Stops s L t) (cut : s.Cut L p off)
    (fresh : ∀ c, s.parent c = some p → ∀ e ∈ L, ¬ s.Under e c) :
    Stops s (L ++ stopsBelow s n p off) (t.stopChildren n p) := by
  induction n generalizing p off L t with
  | zero => exact (List.append_nil L).symm ▸ h
  | succ n ih =>
    rw [State.stopChildren_succ, stopsBelow_succ]
    suffices sweep : ∀ (cs : List Dom) (L : List Dom) (t : State), cs.Nodup → Stops s L t → s.Cut L p off →
        (∀ c ∈ cs, s.parent c = some p → ∀ e ∈ L, ¬ s.Under e c) →
        Stops s (L ++ s.stopsAmong n p off cs) (cs.foldl (State.stopChild n p) t) from
      sweep _ L t (List.nodup_finRange 8) h cut fun c _ => fresh c
    intro cs
    induction cs with
    | nil => intro L t _ h _ _; exact (List.append_nil L).symm ▸ h
    | cons c cs ihcs =>
      intro L t nodup h cut fresh
      obtain ⟨new, nodup⟩ := List.nodup_cons.1 nodup
      have unmet (parent : s.parent c = some p) : c ∉ L := fun hc => fresh c List.mem_cons_self parent c hc .refl
      rw [List.foldl_cons, h.reaches cut unmet]
      by_cases reached : s.cutsOff p off c = true
      · obtain ⟨parent, started, -⟩ := State.cutsOff_iff.1 reached
        have free := fresh c List.mem_cons_self parent
        have stopped_c := h.stop base (unmet parent) (fun e he up => free e he (.single up)) parent started
        have below := ih stopped_c (base.cut_stopped (c := c) (by simp)) fun c' up e he under => by
          rcases List.mem_append.1 he with he | he
          · exact free e he (under.tail up)
          · obtain rfl := List.mem_singleton.1 he
            exact base.forest.not_under up under
        have mem {e : Dom} (he : e ∈ L ++ [c] ++ stopsBelow s n c false) : e ∈ L ∨ s.Under e c := by
          rcases List.mem_append.1 he with he | he
          · rcases List.mem_append.1 he with he | he
            · exact .inl he
            · exact .inr (List.mem_singleton.1 he ▸ .refl)
          · obtain ⟨c', up, under⟩ := under_of_mem_stopsBelow he
            exact .inr (under.tail up)
        have rest := ihcs _ _ nodup below (cut.congr ⟨fun hp => ?_, fun hp => by simp [hp]⟩)
          fun c' hc' parent' e he under => ?_
        · rw [if_pos reached]
          have list : L ++ s.stopsAmong n p off (c :: cs)
              = L ++ [c] ++ stopsBelow s n c false ++ s.stopsAmong n p off cs := by
            unfold State.stopsAmong
            rw [List.filter_cons_of_pos reached, List.flatMap_cons]
            simp
          rw [list]
          exact rest
        · exact (mem hp).resolve_right (base.forest.not_under parent)
        · rcases mem he with he | between
          · exact fresh c' (List.mem_cons_of_mem _ hc') parent' e he under
          · exact base.forest.apart parent parent' (fun same => new (same ▸ hc')) between under
      · rw [if_neg reached]
        have list : s.stopsAmong n p off (c :: cs) = s.stopsAmong n p off cs := by
          unfold State.stopsAmong
          rw [List.filter_cons_of_neg reached]
        rw [list]
        exact ihcs _ _ nodup h cut fun c' hc' => fresh c' (List.mem_cons_of_mem _ hc')

end Descent

end Sys2Proof.Machine

/-! ## A controller event that takes its domain into FAULT -/

namespace Sys2Proof.Machine

open Sys2Proof.Statement

section Faults

variable {s t u v w : State} {d e p : Dom} {r : Ctrl} {cause : FaultCause}

/-! ### The domain's own part (R88, R113, R114) -/

/-- The record of a domain that has gone into FAULT, still counted as it was. -/
def faultRecord (r : Ctrl) (cause : FaultCause) : Ctrl :=
  { r with state := .fault, timer := 0, cold := true, cause := cause, pins := Pins.offRow }

/-- The four outputs in the order of R88, each where it does not stand dropped yet. -/
theorem dropChanges_eq (d : Dom) (p : Pins) :
    dropChanges d p
      = (if p.iso = true then [] else [.iso d true]) ++ (if p.dclk = .stopped then [] else [.dclk d .stopped])
        ++ (if p.drst = true then [] else [.drst d true]) ++ (if p.pen = false then [] else [.pen d false]) := by
  obtain ⟨pen, dclk, iso, drst⟩ := p
  by_cases halted : dclk = .stopped
  · cases pen <;> cases iso <;> cases drst <;> simp [dropChanges, orderedChanges, Pins.offRow, halted]
  · cases pen <;> cases iso <;> cases drst <;>
      simp [dropChanges, orderedChanges, Pins.offRow, halted, Ne.symm halted]

theorem State.dropOutputs_becomes (at_ : s.ctrl d = r) :
    Becomes d { r with pins := Pins.offRow } (dropChanges d r.pins) s (s.dropOutputs d) := by
  have isolated := State.driveIso_drives true at_
  have clocked := isolated.trans (State.driveDclk_drives .stopped isolated.here)
  have reset := clocked.trans (State.driveDrst_drives true clocked.here)
  have unpowered := reset.trans (State.drivePen_drives false reset.here)
  exact unpowered.as rfl (dropChanges_eq d r.pins).symm

/-- A domain gone into FAULT, its own notices sent, before any other domain is stopped. -/
structure Downed (s v : State) (d : Dom) (r : Ctrl) (cause : FaultCause) : Prop where
  frame : OnlyDomains s v
  ctrl : ∀ e, v.ctrl e = replaced s.ctrl d (faultRecord r cause) e
  client : ∀ o, v.client o = s.client o
  queues : v.queues = (appendAll s (faultNotes s d cause)).queues
  changes : v.changes = faultChanges s d r cause

theorem Fails.downed (h : Fails d r cause s u) :
    ∃ v, Downed s v d r cause ∧ u = (v.stopChildren 8 d).raiseHomeLost d := by
  obtain ⟨w, x, moves, pins, kept, rfl⟩ := h
  have dropped := moves.trans (State.dropOutputs_becomes moves.here)
  have down := dropped.trans (State.modCtrl_becomes
    (fun r => { r with state := .fault, timer := 0, cold := true, cause := cause }) dropped.here)
  rw [List.append_nil] at down
  have supervisor := congrArg State.supervisor down.frame
  refine ⟨appendAll ((w.dropOutputs d).modCtrl d
    (fun r => { r with state := .fault, timer := 0, cold := true, cause := cause })) (faultNotes s d cause), ?_, ?_⟩
  · refine ⟨down.frame.domains.trans (appendAll_frame ..).domains, fun e => ?_, fun o => ?_, ?_, ?_⟩
    · rw [appendAll_ctrl, down.ctrl, replaced, faultRecord, kept]
    · rw [appendAll_client, down.frame.client]
    · exact appendAll_queues_congr _ down.frame.queues
    · unfold faultChanges
      rw [← pins, List.append_assoc]
      exact ((HeardAlike.of_eq (by exact down.frame.queues) (by exact down.changes)).appendAll _).changes
  · rw [← State.tellFault_notes down.frame.slots supervisor]
    rfl

theorem Downed.here (h : Downed s v d r cause) : v.ctrl d = faultRecord r cause := by rw [h.ctrl, replaced, if_pos rfl]

theorem Downed.other (h : Downed s v d r cause) (other : e ≠ d) : v.ctrl e = s.ctrl e := by
  rw [h.ctrl, replaced, if_neg other]

theorem Downed.setup (h : Downed s v d r cause) (at_ : s.ctrl d = r) (e : Dom) :
    (v.ctrl e).setup = (s.ctrl e).setup := by
  by_cases here : e = d
  · subst here; rw [h.here, at_]; rfl
  · rw [h.other here]

theorem ctrlSound_faultRecord (sound : ctrlSound r = true) : ctrlSound (faultRecord r cause) = true := by
  rw [ctrlSound_iff] at sound ⊢
  obtain ⟨-, -, -, -, setup, divisor, loss⟩ := sound
  exact ⟨rfl, rfl, .inr rfl, Nat.zero_le _, setup, divisor, loss⟩

theorem State.reaches_congr (setup : ∀ e, (t.ctrl e).setup = (s.ctrl e).setup) (d : Dom) (n : Nat) (p : Dom) :
    t.reaches d n p = s.reaches d n p := by
  induction n generalizing p with
  | zero => rfl
  | succ n ih =>
    unfold State.reaches
    rw [setup]
    cases (s.ctrl p).setup.parent with
    | none => rfl
    | some q => exact congrArg (_ || ·) (ih q)

theorem ForestLaw.congr (law : ForestLaw s) (setup : ∀ e, (t.ctrl e).setup = (s.ctrl e).setup) : ForestLaw t := by
  intro d
  have closes : t.closesCycle d (t.ctrl d).setup.parent = s.closesCycle d (s.ctrl d).setup.parent := by
    rw [setup]
    unfold State.closesCycle
    cases (s.ctrl d).setup.parent with
    | none => rfl
    | some p => exact State.reaches_congr setup ..
  rw [closes]
  exact law d

theorem childHeld_started (tree : TreeLaw s) {c p : Dom} (parent : s.parent c = some p)
    (started : isStarted (s.ctrl c).state = true) :
    (s.ctrl c).counts = true
      ∧ reachRank (some (s.ctrl c).setup.need) ≤ reachRank (effLevel (s.ctrl p).state)
      ∧ reachRank (some (s.ctrl c).setup.need) ≤ reachRank (s.ctrl p).derivedDemand := by
  have held := tree c
  unfold childHeld at held
  rw [show (s.ctrl c).setup.parent = some p from parent] at held
  simpa [started, and_assoc] using held

theorem Downed.derivedFrom (h : Downed s v d r cause) (at_ : s.ctrl d = r) (p : Dom) :
    v.derivedFrom p = s.derivedFrom p := by
  refine State.derivedFrom_congr (h.setup at_) (fun e => ?_) p
  by_cases here : e = d
  · subst here; rw [h.here, at_]; rfl
  · rw [h.other here]

theorem Downed.stoppable (h : Downed s v d r cause) (at_ : s.ctrl d = r) (output : OutputLaw s) (reset : ResetLineLaw s)
    (forest : ForestLaw s) (tree : TreeLaw s) (derived : DerivedLaw s) : Stoppable v where
  output e := by
    by_cases here : e = d
    · subst here; rw [h.here]; exact ctrlSound_faultRecord (at_ ▸ output e)
    · rw [h.other here]; exact output e
  forest := forest.congr (h.setup at_)
  derived p := by
    rw [h.derivedFrom at_, ← derived.1]
    by_cases here : p = d
    · subst here; rw [h.here, at_]; rfl
    · rw [h.other here]
  counted c p parent started := by
    by_cases here : c = d
    · subst here; rw [h.here] at started; cases started
    · unfold State.parent at parent
      rw [h.other here] at parent started ⊢
      exact (childHeld_started tree parent started).1
  waits o tie := by
    rw [h.client] at tie
    have waits := ((reset o).2.2 tie).2.2
    by_cases here : homeOf o = d
    · rw [here] at waits ⊢
      rw [h.here]
      rw [at_] at waits
      exact waits
    · rw [h.other here]; exact waits

/-- A domain in FAULT makes no difference to the stops below it. -/
theorem Downed.stopsBelow (h : Downed s v d r cause) (at_ : s.ctrl d = r) (forest : ForestLaw s) (n : Nat) {off : Bool}
    (under : s.Under p d) : stopsBelow v n p off = stopsBelow s n p off := by
  induction n generalizing p off with
  | zero => rfl
  | succ n ih =>
    rw [stopsBelow_succ, stopsBelow_succ]
    unfold State.stopsAmong
    have cuts (c : Dom) : v.cutsOff p off c = s.cutsOff p off c := by
      rw [Bool.eq_iff_iff, State.cutsOff_iff, State.cutsOff_iff]
      unfold State.parent
      rw [h.setup at_]
      refine and_congr_right fun parent => ?_
      have other : c ≠ d := fun same => forest.not_under (d := c) parent (same ▸ under)
      rw [h.other other]
    rw [show v.cutsOff p off = s.cutsOff p off from funext cuts]
    refine List.flatMap_congr fun c hc => ?_
    have parent := (State.cutsOff_iff.1 (List.mem_filter.1 hc).2).1
    rw [ih (.head parent under)]

theorem ne_of_mem_stopsBelow (forest : ForestLaw s) {n : Nat} {off : Bool} (he : e ∈ Statement.stopsBelow s n d off) :
    e ≠ d := by
  obtain ⟨c, parent, under⟩ := under_of_mem_stopsBelow he
  rintro rfl
  exact forest.not_under parent under

/-! ### From the passages to `Faulted` -/

/-- The stops below a domain that has gone into FAULT. -/
theorem Downed.stops (h : Downed s v d r cause) (at_ : s.ctrl d = r) (forest : ForestLaw s) (base : Stoppable v) :
    Stops v (Statement.stopsBelow s 8 d true) (v.stopChildren 8 d) := by
  have cut : v.Cut [] d true := by
    intro c _ _
    have level : effLevel (v.halts [] d).state = none := by
      unfold State.halts
      rw [if_neg List.not_mem_nil, h.here]
      rfl
    have pos := reachRank_some_pos (v.ctrl c).setup.need
    rw [level]
    simp only [true_or, not_true_eq_false, iff_false, not_le]
    exact pos
  have stops := (Stops.none base).below base 8 cut (p := d) (off := true) nofun
  rwa [List.nil_append, h.stopsBelow at_ forest 8 .refl] at stops

/-- What the end of an event that took domain `d` into FAULT hands on, after the stops below it (R98, R99). -/
theorem Downed.hands {L : List Dom} (h : Downed s v d r cause) (at_ : s.ctrl d = r) (forest : ForestLaw s)
    (base : Stoppable v) (stops : Stops v L u) (absent : d ∉ L) :
    Hands s (replaced (v.halts L) d { faultRecord r cause with counts := (faultRecord r cause).counted })
      ((u.raiseHomeLost d).handNeighbours d (effLevel (s.ctrl d).state)) := by
  have own : v.halts L d = faultRecord r cause := (if_neg absent).trans h.here
  refine stops.hands.step (fun e => ?_) (by rw [own]) (by rw [own]) (by rw [own, h.here])
    (fun p other => by rw [h.other other]) ?_ rfl fun p _ => .inr ⟨?_, nofun⟩
  · have record : replaced (v.halts L) d (faultRecord r cause) e = v.halts L e := by
      unfold replaced
      split
      · next here => rw [here, own]
      · rfl
    rw [State.raiseHomeLost_ctrl, record]
    exact stops.hands e
  · intro p up
    rw [v.halts_setup, h.setup at_] at up
    exact forest.parent_ne up
  · rw [v.halts_derived, base.derived]
    exact State.derivedFrom_le stops.setup fun e _ => stops.counts_le e

/-- The end of an event that took domain `d` into FAULT (R113 to R115). -/
theorem Downed.faulted (h : Downed s v d r cause) (at_ : s.ctrl d = r) (output : OutputLaw s) (reset : ResetLineLaw s)
    (forest : ForestLaw s) (tree : TreeLaw s) (derived : DerivedLaw s) :
    Faulted s (((v.stopChildren 8 d).raiseHomeLost d).handNeighbours d (effLevel (s.ctrl d).state)) d r cause := by
  have base := h.stoppable at_ output reset forest tree derived
  have stops := h.stops at_ forest base
  have absent : d ∉ Statement.stopsBelow s 8 d true := fun he => ne_of_mem_stopsBelow forest he rfl
  have alike (e : Dom) (he : e ∈ Statement.stopsBelow s 8 d true) : v.ctrl e = s.ctrl e :=
    h.other (ne_of_mem_stopsBelow forest he)
  have notes : stopNotes s d = (Statement.stopsBelow s 8 d true).flatMap (ungrantNotes v) := by
    refine List.flatMap_congr fun e he => ?_
    exact (ungrantNotes_congr (by rw [h.frame]) (by rw [alike e he])).symm
  unfold Faulted
  generalize Statement.stopsBelow s 8 d true = L at stops absent alike notes ⊢
  generalize v.stopChildren 8 d = u at stops ⊢
  have lost := State.raiseHomeLost_clients d u
  have hands := h.hands at_ forest base stops absent
  have frame : OnlyDomains s ((u.raiseHomeLost d).handNeighbours d (effLevel (s.ctrl d).state)) :=
    h.frame.trans (stops.frame.trans ((State.raiseHomeLost_frame d u).trans (State.handNeighbours_frame ..)))
  have queues := State.handNeighbours_queues (s := u.raiseHomeLost d) (d := d) (effLevel (s.ctrl d).state)
  have changes := State.handNeighbours_changes (s := u.raiseHomeLost d) (d := d) (effLevel (s.ctrl d).state)
  have client := State.handNeighbours_client (s := u.raiseHomeLost d) (d := d) (before := effLevel (s.ctrl d).state)
  generalize (u.raiseHomeLost d).handNeighbours d (effLevel (s.ctrl d).state) = t at *
  have waits (e : Dom) (event : (s.ctrl e).eventWaits = true) : (t.ctrl e).eventWaits = true := by
    rw [hands e]
    refine handed_eventWaits ?_
    unfold replaced State.halts
    split
    · next here => subst here; rw [at_] at event; exact event
    · next other =>
      rw [h.other other]
      split <;> exact event
  have cold (e : Dom) (other : e ≠ d) : (t.ctrl e).cold = (u.ctrl e).cold := by
    rw [hands e, stops.hands e, handed_cold, handed_cold, replaced, if_neg other]
  have tied (c : Client) (home : homeOf c = d) (tie : ((u.raiseHomeLost d).client c).tied = true) :
      (t.ctrl d).eventWaits = true := by
    rw [State.raiseHomeLost_client, stops.client, if_neg (home ▸ absent), h.client] at tie
    exact waits d (home ▸ ((reset c).2.2 tie).2.2)
  have client (c : Client) : t.client c
      = (follow (s.client c) (t.ctrl (homeOf c)).cold).losing (if homeOf c = d then 1 else 0) := by
    rw [client tied, State.raiseHomeLost_client, stops.client]
    by_cases home : homeOf c = d
    · rw [if_pos home, if_neg (home ▸ absent), h.client, home]; rfl
    · rw [if_neg home, h.client, cold _ home, if_neg home]
      split
      · rfl
      · next fresh =>
        rw [stops.untouched fresh, handed_cold, h.other home, reset.follow_self]
  obtain ⟨ys, record, outputs⟩ := stops.changes
  rw [h.changes] at record
  have total : t.changes = faultChanges s d r cause ++ (ys ++ crstChanges (u.raiseHomeLost d) t) := by
    rw [changes, lost, ← List.append_assoc]
    exact congrArg (· ++ _) record
  refine ⟨fun e => ?_, clientsFollow_of reset waits client, ?_, ⟨_, total.symm⟩, ?_, frame.eventFrame⟩
  · rw [hands e]
    refine congrArg (handed s t e) ?_
    unfold replaced State.halts
    split
    · rfl
    · next other => rw [h.other other]
  · rw [queues, lost, notes, appendAll_append]
    refine stops.queues.trans (appendAll_queues_congr _ h.queues)
  · rw [total, List.drop_left]
    refine (outputsOf_append ..).trans ?_
    rw [outputs, outputsOf_none fun x hx => outputOf_crstChanges hx, List.append_nil]
    refine List.flatMap_congr fun e he => ?_
    have other : e ≠ d := fun same => absent (same ▸ he)
    rw [alike e he, hands e, replaced, if_neg other, State.halts, if_pos he, alike e he]
    rfl

/-- A controller event whose passages end in a fault (R113 to R115). -/
theorem State.event_faulted {passage : State → State} (fails : Fails d (s.ctrl d) cause s (passage s))
    (output : OutputLaw s)
    (reset : ResetLineLaw s) (forest : ForestLaw s) (tree : TreeLaw s) (derived : DerivedLaw s) :
    Faulted s (s.event d passage) d (s.ctrl d) cause := by
  obtain ⟨v, down, result⟩ := fails.downed
  have base := down.stoppable rfl output reset forest tree derived
  have stops := down.stops rfl forest base
  have level : effLevel ((passage s).ctrl d).state = none := by
    rw [result, State.raiseHomeLost_ctrl, stops.untouched fun he => ne_of_mem_stopsBelow forest he rfl, handed_state,
      down.here]
    rfl
  have silent : (passage s).grant d (effLevel (s.ctrl d).state) = passage s := by
    unfold State.grant State.tellGranted
    simp only [level]
    rfl
  rw [State.event_eq, silent, result]
  exact down.faulted rfl output reset forest tree derived

/-- The timed step of a domain that ends in FAULT, as a whole event (R77, R109, R111). -/
theorem State.endTimer_faulted (output : OutputLaw s) (reset : ResetLineLaw s) (forest : ForestLaw s) (tree : TreeLaw s)
    (derived : DerivedLaw s) (ends : timed (s.ctrl d).state = true ∧ (s.ctrl d).timer = 0)
    (fault : (endPlace (s.ctrl d) (s.permits d)).1 = .fault) :
    Faulted s (s.endTimer d) d (s.ctrl d) (endCause (s.ctrl d)) := by
  unfold State.endTimer
  rw [if_pos ends]
  exact State.event_faulted (State.endStep_fails output forest fault ends.1) output reset forest tree derived

end Faults

end Sys2Proof.Machine

/-! ## The laws that an event of a controller keeps -/

namespace Sys2Proof.Machine

open Sys2Proof.Statement

section Kept

variable {s t : State} {d e p c : Dom} {r x : Ctrl} {b : Dom → Ctrl} {place : DomState × Nat} {lost : Nat}

/-! ### What is handed on keeps (R97 to R99) -/

theorem ClientsFollow.resetLine (clients : ClientsFollow s t d lost) (reset : ResetLineLaw s) : ResetLineLaw t := by
  intro c
  obtain ⟨-, pulse, tie⟩ := reset c
  rw [clients c]
  refine ⟨rfl, pulse, fun tied => ?_⟩
  simp only [stillTied, Bool.and_eq_true, decide_eq_true_eq] at tied
  obtain ⟨tied, cold, waits⟩ := tied
  refine ⟨cold, (tie tied).2.1, ?_⟩
  simp only [Ctrl.eventWaits, Bool.or_eq_true, or_assoc]
  exact waits

theorem Hands.derivedLaw (hands : Hands s b t)
    (counted : ∀ e, (b e).demandPending = true ∨ (b e).counts = (b e).counted) :
    DerivedLaw t := by
  refine ⟨hands.derived, fun e => ?_⟩
  rw [hands e, handed_eq]
  rcases counted e with pending | counts
  · exact .inl (by simp [pending])
  · by_cases same : reachMax (b e).leaseDemand (t.derivedFrom e) = (b e).demand
    · refine .inr ?_
      unfold Ctrl.counted Ctrl.demand at *
      rw [counts]
      dsimp only
      rw [same]
    · exact .inl (by simp [same])

theorem Hands.treeLaw (hands : Hands s b t) (setup : ∀ e, (b e).setup = (s.ctrl e).setup)
    (held : ∀ c p, s.parent c = some p → isStarted (b c).state = true → (b c).counts = true
      ∧ reachRank (some (s.ctrl c).setup.need) ≤ reachRank (effLevel (b p).state)) : TreeLaw t := by
  intro c
  have setup_t (e : Dom) : (t.ctrl e).setup = (s.ctrl e).setup := (hands.setup e).trans (setup e)
  unfold childHeld
  rw [setup_t]
  cases parent : (s.ctrl c).setup.parent with
  | none => rfl
  | some p =>
    cases started : isStarted (b c).state with
    | false => rw [hands.state, started]; rfl
    | true =>
      obtain ⟨counts, level⟩ := held c p parent started
      have counts : (t.ctrl c).counts = true := (hands.counts c).trans counts
      have need := State.need_le_derivedFrom (s := t) (p := p) (by rw [State.parent, setup_t]; exact parent) counts
      rw [setup_t, ← hands.derived] at need
      rw [← hands.state] at level
      simp [counts, level, need]

theorem Hands.outputLaw (hands : Hands s b t) (sound : ∀ e, ctrlSound (b e) = true) : OutputLaw t := by
  intro e
  rw [hands e]
  exact sound e

theorem Hands.forestLaw (hands : Hands s b t) (setup : ∀ e, (b e).setup = (s.ctrl e).setup) (forest : ForestLaw s) :
    ForestLaw t := forest.congr fun e => (hands.setup e).trans (setup e)

/-! ### A place and its timer (R74, R77) -/

/-- The timer of a place is loaded in a timed state only, and is a count of ticks. -/
def TimerFits (place : DomState × Nat) : Prop := (timed place.1 = true ∨ place.2 = 0) ∧ place.2 ≤ 255

theorem setupSound_iff {x : Setup} : setupSound x = true ↔
    1 ≤ x.ramp ∧ x.ramp ≤ 255 ∧ x.settle ≤ 255 ∧ x.linger ≤ 255 ∧ 1 ≤ x.discharge ∧ x.discharge ≤ 255 :=
  decide_eq_true_iff

theorem ctrlSound_placed (sound : ctrlSound r = true) (fits : TimerFits place) : ctrlSound (placed r place) = true := by
  rw [ctrlSound_iff] at sound ⊢
  obtain ⟨-, -, -, -, setup, divisor, loss⟩ := sound
  obtain ⟨timer, bound⟩ := fits
  refine ⟨rfl, ?_, timer, bound, setup, divisor, loss⟩
  obtain ⟨state, n⟩ := place
  cases state with
  | linger l => cases l <;> rfl
  | _ => rfl

theorem lingerHoldPlace_fits (setup : setupSound r.setup = true) : TimerFits (lingerHoldPlace r) := by
  obtain ⟨-, -, -, linger, -, discharge⟩ := setupSound_iff.1 setup
  unfold lingerHoldPlace
  split
  · exact ⟨.inl rfl, discharge⟩
  · exact ⟨.inl rfl, linger⟩

theorem TimerFits.zero (state : DomState) : TimerFits (state, 0) := ⟨.inr rfl, Nat.zero_le _⟩

theorem startPlace_fits (setup : setupSound r.setup = true) (run : Run) : TimerFits (startPlace r run) := by
  obtain ⟨-, -, settle, -⟩ := setupSound_iff.1 setup
  unfold startPlace
  split
  · exact ⟨.inl rfl, settle⟩
  · split <;> exact .zero _

theorem heldPlace_fits (setup : setupSound r.setup = true) (permitted : Bool) : TimerFits (heldPlace r permitted) := by
  rcases reach_cases r.demand with demand | demand | ⟨run, demand⟩
  · unfold heldPlace; rw [demand]; exact lingerHoldPlace_fits setup
  · unfold heldPlace; rw [demand]; exact .zero _
  · rw [heldPlace_run demand]
    split
    · exact startPlace_fits setup run
    · exact .zero _

theorem fallPlace_fits (setup : setupSound r.setup = true) (permitted : Bool) : TimerFits (fallPlace r permitted) := by
  unfold fallPlace
  split
  · exact .zero _
  · exact .zero _
  · exact heldPlace_fits setup _
  · exact heldPlace_fits setup _

theorem stoppedPlace_fits (setup : setupSound r.setup = true) : TimerFits (stoppedPlace r) := by
  unfold stoppedPlace
  split
  · exact lingerHoldPlace_fits setup
  · exact .zero _

theorem endPlace_fits (sound : ctrlSound r = true) (permitted : Bool) : TimerFits (endPlace r permitted) := by
  obtain ⟨-, -, timer, bound, setup, -⟩ := ctrlSound_iff.1 sound
  obtain ⟨-, ramp, -, -, -, discharge⟩ := setupSound_iff.1 setup
  cases state : r.state with
  | powering =>
    simp only [endPlace, state]
    split
    · exact ⟨.inl rfl, bound⟩
    · exact .zero _
  | starting run =>
    simp only [endPlace, state]
    split <;> exact .zero _
  | linger l =>
    simp only [endPlace, state, lingerPlace]
    cases l with
    | hold =>
      dsimp only
      split
      · exact ⟨.inl rfl, discharge⟩
      · exact heldPlace_fits setup _
    | slow | full => exact fallPlace_fits setup _
  | discharge =>
    simp only [endPlace, state, powerPlace]
    split
    · exact .zero _
    · split
      · exact heldPlace_fits setup _
      · exact ⟨.inl rfl, ramp⟩
  | off | held | slow | full | fault =>
    simp only [endPlace, state]
    exact ⟨state ▸ timer, bound⟩

/-! ### A timed step and the tree (R97, R100) -/

theorem heldPlace_started {permitted : Bool} (started : isStarted (heldPlace r permitted).1 = true) :
    permitted = true := by
  rcases reach_cases r.demand with demand | demand | ⟨run, demand⟩
  · unfold heldPlace lingerHoldPlace at started
    rw [demand] at started
    dsimp only at started
    split at started <;> cases started
  · unfold heldPlace at started
    rw [demand] at started
    cases started
  · rw [heldPlace_run demand] at started
    split at started
    · assumption
    · cases started

/-- A timed step starts a domain only where its parent permits, or the domain was started before (R80, R95). -/
theorem endPlace_started {permitted : Bool} (started : isStarted (endPlace r permitted).1 = true) :
    permitted = true ∨ isStarted r.state = true := by
  cases state : r.state with
  | powering =>
    simp only [endPlace, state] at started
    split at started <;> cases started
  | starting | slow | full => exact .inr rfl
  | linger l =>
    cases l with
    | hold =>
      simp only [endPlace, state, lingerPlace] at started
      split at started
      · cases started
      · exact .inl (heldPlace_started started)
    | slow | full => exact .inr rfl
  | discharge =>
    simp only [endPlace, state, powerPlace] at started
    split at started
    · cases started
    · split at started
      · exact .inl (heldPlace_started started)
      · cases started
  | off | held | fault => simp only [endPlace, state] at started; cases started

theorem heldPlace_level (permitted : Bool) (wanted : r.demand ≠ none) (whole : (heldPlace r permitted).1 ≠ .fault) :
    1 ≤ reachRank (effLevel (heldPlace r permitted).1) := by
  have run_level (run : Run) : 1 ≤ reachRank (effLevel run.state) := by cases run <;> decide
  rcases reach_cases r.demand with demand | demand | ⟨run, demand⟩
  · exact absurd demand wanted
  · unfold heldPlace; rw [demand]; exact le_refl 1
  · rw [heldPlace_run demand] at whole ⊢
    split
    · next permitted =>
      rw [if_pos permitted] at whole
      unfold startPlace at whole ⊢
      split
      · exact le_refl 1
      · next settle =>
        rw [if_neg settle] at whole
        split
        · next absent => rw [if_pos absent] at whole; exact absurd rfl whole
        · exact run_level run
    · exact le_refl 1

/-- A timed step takes no level away that the demand still asks for (R82, R85). -/
theorem endPlace_level {n : Nat} {permitted : Bool} (ends : timed r.state = true)
    (whole : (endPlace r permitted).1 ≠ .fault)
    (pos : 1 ≤ n) (level : n ≤ reachRank (effLevel r.state)) (demand : n ≤ reachRank r.demand) :
    n ≤ reachRank (effLevel (endPlace r permitted).1) := by
  have wanted : r.demand ≠ none := fun none => by rw [none] at demand; exact absurd demand (Nat.not_le.2 pos)
  cases state : r.state with
  | powering | discharge => rw [state] at level; exact absurd level (Nat.not_le.2 pos)
  | starting run =>
    rw [state] at level
    simp only [endPlace, state] at whole ⊢
    split
    · next absent => rw [if_pos absent] at whole; exact absurd rfl whole
    · refine level.trans ?_
      cases run <;> decide
  | linger l =>
    rw [state] at level
    simp only [endPlace, state, lingerPlace] at whole ⊢
    cases l with
    | hold =>
      rw [if_neg wanted] at whole ⊢
      exact level.trans (heldPlace_level _ wanted whole)
    | slow | full =>
      unfold fallPlace at whole ⊢
      rcases reach_cases r.demand with low | low | ⟨run, high⟩
      · exact absurd low wanted
      · rw [low] at whole demand ⊢
        exact demand.trans (heldPlace_level _ wanted whole)
      · rw [high] at demand ⊢
        cases run <;> exact demand
  | off | held | slow | full | fault => rw [state] at ends; cases ends

end Kept

end Sys2Proof.Machine

/-! ## The timed steps of a tick, one after another -/

namespace Sys2Proof.Machine

open Sys2Proof.Statement

section TimedSteps

variable {s t u v : State} {d e p c : Dom} {r x : Ctrl} {cause : FaultCause} {lost : Nat}

/-- The laws after a timed step without a fault (R82, R85, R86, R109). -/
theorem Moved.laws (laws : DomainLaws s) (ends : timed (s.ctrl d).state = true)
    (whole : (endPlace (s.ctrl d) (s.permits d)).1 ≠ .fault)
    (moved : Moved s t d (placed (s.ctrl d) (endPlace (s.ctrl d) (s.permits d))) lost) : DomainLaws t := by
  obtain ⟨output, reset, forest, tree, derived⟩ := laws
  obtain ⟨hands, clients, -⟩ := moved
  have hands : Hands s _ t := hands
  have setup (e : Dom) : (if e = d then { placed (s.ctrl d) (endPlace (s.ctrl d) (s.permits d)) with
      counts := (placed (s.ctrl d) (endPlace (s.ctrl d) (s.permits d))).counted } else s.ctrl e).setup
      = (s.ctrl e).setup := by
    split
    · next here => subst here; rfl
    · rfl
  refine ⟨hands.outputLaw fun e => ?_, ClientsFollow.resetLine clients reset, hands.forestLaw setup forest,
    hands.treeLaw setup fun c p parent started => ?_, hands.derivedLaw fun e => ?_⟩
  · split
    · exact ctrlSound_placed (output d) (endPlace_fits (output d) _)
    · exact output e
  · by_cases here : c = d
    · subst here
      rw [if_pos rfl] at started
      rw [if_pos rfl, if_neg (forest.parent_ne parent)]
      refine ⟨?_, ?_⟩
      · have running : isStarted (endPlace (s.ctrl c) (s.permits c)).1 = true := started
        unfold Ctrl.counted
        simp [placed, running, whole]
      · rcases endPlace_started started with permits | before
        · unfold State.permits at permits
          rw [show (s.ctrl c).setup.parent = some p from parent] at permits
          exact of_decide_eq_true permits
        · exact (childHeld_started tree parent before).2.1
    · rw [if_neg here] at started ⊢
      obtain ⟨counts, level, demand⟩ := childHeld_started tree parent started
      refine ⟨counts, ?_⟩
      split
      · next parent_d =>
        subst parent_d
        refine endPlace_level ends whole (reachRank_some_pos _) level ?_
        rw [Ctrl.demand, reachRank_reachMax]
        exact demand.trans (le_max_right ..)
      · exact level
  · split
    · exact .inr rfl
    · exact derived.2 e

/-! ### The forced stop keeps the tree (R100, R104) -/

theorem depth_le_eight (s : State) (e : Dom) : s.depth e ≤ 8 := by
  unfold State.depth
  exact List.countP_le_length

/-- The stop below `p` goes on below each domain that it reaches, to every started child with a need above HOLD. -/
theorem ForestLaw.stopsBelow_closed (forest : ForestLaw s) {n : Nat} {off : Bool} {q : Dom} (deep : 8 ≤ n + s.depth p)
    (hq : q ∈ stopsBelow s n p off) (child : s.parent c = some q) (started : isStarted (s.ctrl c).state = true)
    (need : (s.ctrl c).setup.need ≠ .hold) : c ∈ stopsBelow s n p off := by
  induction n generalizing p off with
  | zero => cases hq
  | succ n ih =>
    rw [stopsBelow_succ, mem_stopsAmong] at hq ⊢
    obtain ⟨c', list, cut, below⟩ := hq
    refine ⟨c', list, cut, .inr ?_⟩
    have lower := forest.depth_lt (State.cutsOff_iff.1 cut).1
    rcases below with rfl | below
    · have lowest := forest.depth_lt child
      have bound := depth_le_eight s c
      obtain ⟨m, rfl⟩ : ∃ m, n = m + 1 := ⟨n - 1, by omega⟩
      rw [stopsBelow_succ, mem_stopsAmong]
      exact ⟨c, List.mem_finRange c, State.cutsOff_iff.2 ⟨child, started, .inr need⟩, .inl rfl⟩
    · exact ih (by omega) below

theorem stopped_started (x : Ctrl) : isStarted (stopped x).state = false := by
  rw [stopped_eq]
  rcases stoppedPlace_cases x with ⟨place, -⟩ | place | place <;> rw [place] <;> rfl

/-- The laws after a fault (R104, R113 to R115). -/
theorem Faulted.laws (laws : DomainLaws s) (faulted : Faulted s t d (s.ctrl d) cause) : DomainLaws t := by
  obtain ⟨output, reset, forest, tree, derived⟩ := laws
  obtain ⟨hands, clients, -⟩ := faulted
  have hands : Hands s _ t := hands
  have setup (e : Dom) : (if e = d then { s.ctrl d with
        state := .fault, timer := 0, cold := true, cause := cause, counts := false
        pins := { pen := false, dclk := .stopped, iso := true, drst := true } }
      else if e ∈ stopsBelow s 8 d true then stopped (s.ctrl e) else s.ctrl e).setup = (s.ctrl e).setup := by
    split
    · next here => subst here; rfl
    · split <;> rfl
  refine ⟨hands.outputLaw fun e => ?_, ClientsFollow.resetLine clients reset, hands.forestLaw setup forest,
    hands.treeLaw setup fun c p parent started => ?_, hands.derivedLaw fun e => ?_⟩
  · split
    · exact ctrlSound_faultRecord (cause := cause) (output d)
    · split
      · obtain ⟨-, -, -, -, setup, -⟩ := ctrlSound_iff.1 (output e)
        exact ctrlSound_placed (output e) (stoppedPlace_fits setup)
      · exact output e
  · by_cases here : c = d
    · rw [if_pos here] at started; cases started
    rw [if_neg here] at started ⊢
    by_cases reached : c ∈ stopsBelow s 8 d true
    · rw [if_pos reached, stopped_started] at started; cases started
    rw [if_neg reached] at started ⊢
    obtain ⟨counts, level, demand⟩ := childHeld_started tree parent started
    refine ⟨counts, ?_⟩
    split
    · next parent_d =>
      subst parent_d
      refine absurd ?_ reached
      rw [stopsBelow_succ, mem_stopsAmong]
      exact ⟨c, List.mem_finRange c, State.cutsOff_iff.2 ⟨parent, started, .inl rfl⟩, .inl rfl⟩
    · split
      · next stopped_p =>
        have need : (s.ctrl c).setup.need = .hold := by
          by_contra need
          exact reached (forest.stopsBelow_closed (Nat.le_add_right ..) stopped_p parent started need)
        have wanted : (s.ctrl p).demand ≠ none := fun none => by
          have rank : reachRank (s.ctrl p).demand = 0 := reachRank_zero.2 none
          have pos := reachRank_some_pos (s.ctrl c).setup.need
          rw [Ctrl.demand, reachRank_reachMax] at rank
          omega
        rw [stopped_eq, need]
        unfold stoppedPlace
        rw [if_neg wanted]
        exact le_refl 1
      · exact level
  · split
    · exact .inr rfl
    · split
      · exact .inr (stoppedPlace_counted (s.ctrl e)).symm
      · exact derived.2 e

/-! ### One after another (R77) -/

theorem State.endTimer_ended (laws : DomainLaws s) (d : Dom) :
    TimerEnded s (s.endTimer d) d ∧ DomainLaws (s.endTimer d) := by
  obtain ⟨output, reset, forest, tree, derived⟩ := id laws
  by_cases ends : timed (s.ctrl d).state = true ∧ (s.ctrl d).timer = 0
  · unfold TimerEnded
    rw [if_pos ends]
    by_cases fault : (endPlace (s.ctrl d) (s.permits d)).1 = .fault
    · have faulted := State.endTimer_faulted output reset forest tree derived ends fault
      rw [if_pos fault]
      exact ⟨faulted, Faulted.laws laws faulted⟩
    · have moved := State.endTimer_moved output reset forest derived ends fault
      rw [if_neg fault]
      exact ⟨moved, Moved.laws laws ends.1 fault moved⟩
  · have still : s.endTimer d = s := by unfold State.endTimer; rw [if_neg ends]
    unfold TimerEnded
    rw [if_neg ends, still]
    exact ⟨rfl, laws⟩

theorem State.endTimers_made (ds : List Dom) (laws : DomainLaws s) :
    EndsMade ds s (s.endTimers ds) ∧ DomainLaws (s.endTimers ds) := by
  induction ds generalizing s with
  | nil => exact ⟨rfl, laws⟩
  | cons d ds ih =>
    obtain ⟨ended, laws⟩ := State.endTimer_ended laws d
    obtain ⟨made, laws⟩ := ih laws
    exact ⟨⟨_, ended, made⟩, laws⟩

end TimedSteps

end Sys2Proof.Machine

/-! ## The events that would make a warm home cold -/

namespace Sys2Proof.Machine

open Sys2Proof.Statement

section Cooling

variable {s t u v : State} {d : Dom} {r x : Ctrl} {cause : FaultCause} {place : DomState × Nat} {run : Run}

theorem Goes.cold (h : Goes d r place s t) : (t.ctrl d).cold = (placed r place).cold :=
  congrArg Ctrl.cold (Becomes.here h)

/-- A domain in FAULT is cold, whatever the stops below it do (R89). -/
theorem Fails.cold (laws : DomainLaws s) (h : Fails d (s.ctrl d) cause s t) : (t.ctrl d).cold = true := by
  obtain ⟨output, reset, forest, tree, derived⟩ := laws
  obtain ⟨v, down, rfl⟩ := h.downed
  have stops := down.stops rfl forest (down.stoppable rfl output reset forest tree derived)
  rw [State.raiseHomeLost_ctrl, stops.untouched fun he => ne_of_mem_stopsBelow forest he rfl, handed_cold, down.here]
  rfl

theorem Leads.cold (laws : DomainLaws s) (h : Leads d (s.ctrl d) place s t) :
    (t.ctrl d).cold = (placed (s.ctrl d) place).cold := by
  unfold Leads at h
  split at h
  · next fault =>
    rw [Fails.cold laws h]
    unfold placed
    rw [fault]
  · exact Goes.cold h

/-- HELD compares its demand: where that leaves the cold flag (R80, R89). -/
theorem State.heldCompare_cold (laws : DomainLaws s) (held : (s.ctrl d).state = .held) :
    ((s.heldCompare d).ctrl d).cold = (placed (s.ctrl d) (heldPlace (s.ctrl d) (s.permits d))).cold := by
  obtain ⟨pins, -, timer, -⟩ := ctrlSound_iff.1 (laws.1 d)
  rw [rowPins, held] at pins
  rw [held] at timer
  exact Leads.cold laws (State.heldCompare_leads rfl held (timer.resolve_left nofun) pins)

/-- The cancel of a start without a demand for one (R80, R88). -/
theorem State.cancelStart_cold (at_ : s.ctrl d = r) (row : r.pins = r.startRow run)
    (low : r.demand = none ∨ r.demand = some .hold) (irrefl : r.setup.parent ≠ some d) :
    ((((s.driveDclk d .stopped).toHeld d).ctrl d).cold) = (placed r (heldPlace r (s.permits d))).cold := by
  have clocked := State.driveDclk_drives .stopped at_
  have permits := clocked.permits_stand at_ rfl irrefl
  have held := State.toHeld_goes clocked.here (by rw [row]; rfl) low irrefl
  rw [permits] at held
  exact held.cold

/-- A running domain whose demand has fallen (R77, R84). -/
theorem State.toLingerRun_cold (at_ : s.ctrl d = r) (row : r.pins = r.runRow run) (warm : r.cold = false)
    (irrefl : r.setup.parent ≠ some d) :
    ((s.toLingerRun d run).ctrl d).cold = (placed r (lingerRunPlace r (s.permits d) run)).cold := by
  have entered := State.enter_becomes (.linger run.level) r.setup.linger at_
  have permits := entered.permits_stand at_ rfl irrefl
  unfold State.toLingerRun lingerRunPlace
  dsimp only
  rw [at_, entered.here]
  dsimp only
  split
  · have left := State.leaveLinger_run_goes entered.here row warm irrefl
    rw [permits] at left
    exact left.cold
  · rw [entered.here]
    cases run <;> exact warm

/-- Where a demand change leaves the cold flag of a warm domain (R78 to R86, R89). -/
theorem State.demandStep_cold (laws : DomainLaws s) (warm : (s.ctrl d).cold = false) :
    ((s.demandStep d).ctrl d).cold = (placed (s.ctrl d) (demandPlace (s.ctrl d) (s.permits d))).cold := by
  have output := laws.1 d
  obtain ⟨pins, cold, -⟩ := ctrlSound_iff.1 output
  have irrefl := ForestLaw.parent_some_ne laws.2.2.1 d
  have compare := State.heldCompare_cold (d := d) laws
  have leads {l : Level} (state : (s.ctrl d).state = .linger l) := State.leaveLinger_leads rfl state output irrefl
  have cools {l : Level} (state : (s.ctrl d).state = .linger l) := Leads.cold laws (leads state)
  have demand_eq : s.demand d = (s.ctrl d).demand := rfl
  generalize at_ : s.ctrl d = r at *
  rw [rowPins] at pins
  rw [coldSound] at cold
  cases state : r.state with
  | off | powering | discharge | fault => rw [state, warm] at cold; cases cold
  | held =>
    have step : s.demandStep d = s.heldCompare d := by unfold State.demandStep; rw [at_, state]
    have goal : demandPlace r (s.permits d) = heldPlace r (s.permits d) := by unfold demandPlace; rw [state]
    rw [step, goal]
    exact compare state
  | starting run =>
    have row : r.pins = r.startRow run := by rw [pins, state]; cases run <;> rfl
    unfold State.demandStep demandPlace
    rw [at_, state, demand_eq]
    rcases reach_cases r.demand with demand | demand | ⟨to_, demand⟩
    · rw [demand]; exact State.cancelStart_cold at_ row (.inl demand) irrefl
    · rw [demand]; exact State.cancelStart_cold at_ row (.inr demand) irrefl
    · rw [demand]
      cases to_ <;> simp [Run.level, State.driveDclk_ctrl, State.modCtrl_ctrl, at_, placed]
  | slow =>
    have row : r.pins = r.runRow .slow := by rw [pins, state]; rfl
    unfold State.demandStep demandPlace
    rw [at_, state, demand_eq]
    rcases reach_cases r.demand with demand | demand | ⟨to_, demand⟩
    · rw [demand]; exact State.toLingerRun_cold at_ row warm irrefl
    · rw [demand]; exact State.toLingerRun_cold at_ row warm irrefl
    · rw [demand]
      cases to_ with
      | slow => exact (congrArg Ctrl.cold at_).trans warm
      | full => exact (State.toRun_goes at_ row warm .full).cold
  | full =>
    have row : r.pins = r.runRow .full := by rw [pins, state]; rfl
    unfold State.demandStep demandPlace
    rw [at_, state, demand_eq]
    rcases reach_cases r.demand with demand | demand | ⟨to_, demand⟩
    · rw [demand]; exact State.toLingerRun_cold at_ row warm irrefl
    · rw [demand]; exact State.toLingerRun_cold at_ row warm irrefl
    · rw [demand]
      cases to_ with
      | slow => exact State.toLingerRun_cold at_ row warm irrefl
      | full => exact (congrArg Ctrl.cold at_).trans warm
  | linger l =>
    have step : s.demandStep d
        = if reachRank (some l) ≤ reachRank r.demand then s.leaveLinger d l else s := by
      unfold State.demandStep; rw [at_, state, demand_eq]
    have goal : demandPlace r (s.permits d)
        = if reachRank r.demand < reachRank (some l) then (.linger l, r.timer) else lingerPlace r (s.permits d) l := by
      unfold demandPlace; rw [state]
    rw [step, goal]
    by_cases met : reachRank (some l) ≤ reachRank r.demand
    · rw [if_pos met, if_neg (Nat.not_lt.2 met)]
      exact cools state
    · rw [if_neg met, if_pos (Nat.not_le.1 met), at_, warm]
      cases l with
      | hold => exact warm.symm
      | slow | full => rfl

theorem State.parentStep_cold (laws : DomainLaws s) :
    ((s.parentStep d).ctrl d).cold
      = if (s.ctrl d).state = .held then (placed (s.ctrl d) (heldPlace (s.ctrl d) (s.permits d))).cold
        else (s.ctrl d).cold := by
  unfold State.parentStep
  split
  · next held => exact State.heldCompare_cold laws held
  · rfl

theorem State.lossStep_cold (laws : DomainLaws s) :
    ((s.lossStep d).ctrl d).cold
      = (lossFaults (s.ctrl d).setup.monitor (s.ctrl d).state || (s.ctrl d).cold) := by
  unfold State.lossStep
  split
  · next faults =>
    rw [faults, Bool.true_or]
    refine Fails.cold (cause := .loss) laws ⟨s, s.ctrl d, ?_, ?_, rfl, rfl⟩
    · rw [orderedChanges_same]; exact .refl rfl
    · simp [faultedFrom]
  · next stands =>
    rw [Bool.not_eq_true] at stands
    rw [stands, Bool.false_or]

/-- The events of which the model looks at the outcome are those of which the statement names the place (R89, R141). -/
theorem State.coldWaits_eq (laws : DomainLaws s) (d : Dom) : s.coldWaits d = wouldCool s d := by
  cases cold : (s.ctrl d).cold with
  | true => simp [State.coldWaits, State.cooledBy, wouldCool, cools, cold]
  | false =>
    unfold State.coldWaits State.cooledBy wouldCool cools
    dsimp only
    rw [State.demandStep_cold laws cold, State.parentStep_cold laws, State.lossStep_cold laws, cold]
    by_cases held : (s.ctrl d).state = .held <;> simp [held]

end Cooling

end Sys2Proof.Machine

/-! ## A whole tick -/

namespace Sys2Proof.Machine

open Sys2Proof.Statement

section WholeTick

variable {s t u v : State} {d : Dom}

/-! ### The laws through the counts and the pulses -/

theorem ctrlSound_ticked {r : Ctrl} (sound : ctrlSound r = true) :
    ctrlSound { r with timer := r.timer - 1 } = true := by
  rw [ctrlSound_iff] at sound ⊢
  obtain ⟨pins, cold, timer, bound, rest⟩ := sound
  refine ⟨pins, cold, timer.imp_right fun zero => ?_, (Nat.sub_le ..).trans bound, rest⟩
  dsimp only
  omega

/-- The laws rest on the controllers, their timers aside, and on CRST_N. -/
theorem DomainLaws.congr (laws : DomainLaws s) (records : ∀ e, t.ctrl e = { s.ctrl e with timer := (t.ctrl e).timer })
    (output : OutputLaw t) (reset : ResetLineLaw t) : DomainLaws t := by
  obtain ⟨-, -, forest, tree, derived, counted⟩ := laws
  have setup (e : Dom) : (t.ctrl e).setup = (s.ctrl e).setup := by rw [records]
  have derivedFrom (p : Dom) : t.derivedFrom p = s.derivedFrom p :=
    State.derivedFrom_congr setup (fun e => by rw [records]) p
  refine ⟨output, reset, forest.congr setup, fun c => ?_, fun p => ?_, fun e => ?_⟩
  · have held := tree c
    unfold childHeld at held ⊢
    rw [records c]
    dsimp only
    cases parent : (s.ctrl c).setup.parent with
    | none => rfl
    | some p =>
      rw [parent] at held
      dsimp only at held ⊢
      rw [records p]
      exact held
  · rw [records, derivedFrom]
    exact derived p
  · rw [records]
    exact counted e

theorem DomainLaws.ticked (laws : DomainLaws s) : DomainLaws s.begin.countTick := by
  have records (e : Dom) : s.begin.countTick.ctrl e = { s.ctrl e with timer := (s.ctrl e).timer - 1 } :=
    State.countTick_ctrl ..
  refine DomainLaws.congr laws (fun e => by rw [records]) (fun e => ?_) fun c => ?_
  · rw [records]
    exact ctrlSound_ticked (laws.1 e)
  · rw [records]
    exact laws.2.1 c

/-! ### The restart pulses (R140, R141) -/

theorem wouldCool_congr (ctrl : ∀ e, t.ctrl e = s.ctrl e) (d : Dom) : wouldCool t d = wouldCool s d := by
  have permits : t.permits d = s.permits d := by
    unfold State.permits
    simp only [ctrl]
  unfold wouldCool
  rw [ctrl, permits]

/-- An event that makes a warm home cold waits there. -/
theorem wouldCool_waits (s : State) (d : Dom) :
    (wouldCool s d && !(s.ctrl d).cold && (s.ctrl d).eventWaits) = wouldCool s d := by
  unfold wouldCool cools Ctrl.eventWaits
  dsimp only
  cases (s.ctrl d).cold
  · cases (s.ctrl d).demandPending <;> cases (s.ctrl d).parentPending <;> cases (s.ctrl d).lossPending <;> simp
  · simp

theorem State.tickPulse_pulsed (laws : DomainLaws s) (c : Client) : (s.tickPulse c).client c = pulsed s c := by
  rw [State.tickPulse_self, State.coldWaits_eq laws, wouldCool_waits]
  rfl

/-- The change of CRST_N that the tick at one restart pulse makes (R141). -/
def pulseChange (s : State) (c : Client) : List PinChange :=
  if (s.client c).pulse = 1 ∧ (s.client c).crst ≠ (pulsed s c).crst then [.crst c (pulsed s c).crst] else []

theorem State.tickPulse_changes (laws : DomainLaws s) (c : Client) :
    (s.tickPulse c).changes = s.changes ++ pulseChange s c := by
  have client := State.tickPulse_pulsed laws c
  unfold pulseChange
  rw [← client]
  unfold State.tickPulse
  dsimp only
  by_cases ends : (s.client c).pulse = 1
  · rw [if_pos ends, State.syncCrst_client, if_pos rfl]
    unfold State.syncCrst
    rw [State.driveCrst_changes]
    simp only [State.setClient_client_self, ends, true_and, ne_eq, ite_not]
    rfl
  · rw [if_neg ends, if_neg fun both => ends both.1]
    exact (List.append_nil _).symm

theorem State.tickPulse_laws (laws : DomainLaws s) (c : Client) : DomainLaws (s.tickPulse c) := by
  have ctrl := (s.tickPulse_frame c).ctrl
  refine DomainLaws.congr laws (fun e => by rw [ctrl]) (fun e => by rw [ctrl]; exact laws.1 e) fun o => ?_
  rw [ctrl]
  by_cases same : o = c
  · subst same
    obtain ⟨crst, pulse, tie⟩ := laws.2.1 o
    rw [State.tickPulse_self]
    split
    · refine ⟨by simp, Nat.zero_le _, fun tied => ?_⟩
      simp only [Bool.and_eq_true, Bool.not_eq_true'] at tied
      exact ⟨tied.1.2, rfl, tied.2⟩
    · next runs =>
      have still : decide (0 < (s.client o).pulse - 1) = decide (0 < (s.client o).pulse) :=
        decide_eq_decide.2 (by omega)
      refine ⟨?_, (Nat.sub_le ..).trans pulse, fun tied => ?_⟩
      · dsimp only
        rw [still]
        exact crst
      · obtain ⟨cold, zero, waits⟩ := tie tied
        exact ⟨cold, by dsimp only; rw [zero], waits⟩
  · rw [State.tickPulse_client _ _ _ same]
    exact laws.2.1 o

theorem pulsed_congr {c : Client} (ctrl : ∀ e, t.ctrl e = s.ctrl e) (client : t.client c = s.client c) :
    pulsed t c = pulsed s c := by
  unfold pulsed
  rw [client, ctrl, wouldCool_congr ctrl]

theorem pulseChange_congr {c : Client} (ctrl : ∀ e, t.ctrl e = s.ctrl e) (client : t.client c = s.client c) :
    pulseChange t c = pulseChange s c := by
  unfold pulseChange
  rw [client, pulsed_congr ctrl client]

theorem State.tickPulses_pulsed (cs : List Client) (nodup : cs.Nodup) (laws : DomainLaws s) :
    (∀ c, (cs.foldl State.tickPulse s).client c = if c ∈ cs then pulsed s c else s.client c)
    ∧ (cs.foldl State.tickPulse s).changes = s.changes ++ cs.flatMap (pulseChange s) := by
  induction cs generalizing s with
  | nil => exact ⟨fun c => by simp, by simp⟩
  | cons c cs ih =>
    obtain ⟨new, nodup⟩ := List.nodup_cons.1 nodup
    have ctrl := (s.tickPulse_frame c).ctrl
    have away (o : Client) (other : o ≠ c) : (s.tickPulse c).client o = s.client o := State.tickPulse_client _ _ _ other
    obtain ⟨clients, changes⟩ := ih nodup (State.tickPulse_laws laws c)
    rw [List.foldl_cons]
    refine ⟨fun o => ?_, ?_⟩
    · rw [clients]
      by_cases same : o = c
      · subst same
        rw [if_neg new, if_pos List.mem_cons_self, State.tickPulse_pulsed laws]
      · simp only [List.mem_cons, same, false_or]
        rw [pulsed_congr ctrl (away o same), away o same]
    · rw [changes, State.tickPulse_changes laws, List.flatMap_cons, List.append_assoc]
      refine congrArg _ (congrArg _ (List.flatMap_congr fun o ho => ?_))
      exact pulseChange_congr ctrl (away o fun same => new (same ▸ ho))

theorem flatMap_pulseChange (s : State) (cs : List Client) :
    cs.flatMap (pulseChange s)
      = (cs.filter (fun c => decide ((s.client c).pulse = 1 ∧ (s.client c).crst ≠ (pulsed s c).crst))).map
          (fun c => .crst c (pulsed s c).crst) := by
  induction cs with
  | nil => rfl
  | cons c cs ih =>
    rw [List.flatMap_cons, ih, List.filter_cons, pulseChange]
    simp only [decide_eq_true_eq]
    split <;> rfl

/-- The restart pulses of a tick, in the words of `TickFinished`. -/
theorem State.tickPulses_finished (laws : DomainLaws v) :
    (∀ c, v.tickPulses.client c = pulsed v c)
    ∧ v.tickPulses.changes
      = v.changes ++ ((List.finRange 4).filter (fun c =>
            decide ((v.client c).pulse = 1 ∧ (v.client c).crst ≠ (pulsed v c).crst))).map
          (fun c => .crst c (pulsed v c).crst) := by
  obtain ⟨clients, changes⟩ := State.tickPulses_pulsed (List.finRange 4) (List.nodup_finRange 4) laws
  refine ⟨fun c => (clients c).trans (if_pos (List.mem_finRange c)), ?_⟩
  rw [← flatMap_pulseChange]
  exact changes

/-! ### The tick (R45) -/

/-- A tick is its counts, its timed steps and its pulses, and then Rest Control. -/
theorem State.tick_pulses (s : State) :
    s.tick.judgeRest
      = { (s.countTick.endTimers (List.finRange 8)).tickPulses with rest := s.tick.judgeRest.rest } := by
  have delay := State.endDelay_frame s (s.countTick.endTimers (List.finRange 8)).tickPulses
  have whole : s.tick = s.endDelay (s.countTick.endTimers (List.finRange 8)).tickPulses := rfl
  rw [← whole] at delay
  generalize (s.countTick.endTimers (List.finRange 8)).tickPulses = v at delay ⊢
  generalize s.tick = w at delay ⊢
  rw [State.judgeRest_frame w, delay]

/-- The rest that a tick ends in (R133). -/
theorem State.tick_rest (s : State) :
    s.tick.judgeRest.rest
      = judgedRest
          (if s.rest.part = .restingPending ∧ s.rest.timer = 1 ∧ s.tick.judgeRest.restConditions = true then
            { s.rest.ticked with part := .quiet, timer := 0 }
          else s.rest.ticked) s.tick.judgeRest := by
  have rest : s.tick.rest = _ := State.wholeTick_rest (List.finRange 8) s
  rw [State.judgeRest_rest, rest, State.restConditions_judged]
  rfl

/-- What a tick leaves after its counts, where the timed steps lead to `v`. -/
theorem TickFinished.of_pulses (made : EndsMade (List.finRange 8) u v) (laws : DomainLaws v)
    (pulses : t = { v.tickPulses with rest := t.rest })
    (rest : t.rest
      = judgedRest
          (if s.rest.part = .restingPending ∧ s.rest.timer = 1 ∧ t.restConditions = true then
            { s.rest.ticked with part := .quiet, timer := 0 }
          else s.rest.ticked) t) : TickFinished (List.finRange 8) s u t := by
  obtain ⟨client, changes⟩ := State.tickPulses_finished laws
  have frame : v.tickPulses = { v with clients := v.tickPulses.clients, changes := v.tickPulses.changes } :=
    State.tickPulses_frame v
  have clients : t.clients = v.tickPulses.clients := by rw [pulses]
  have record : t.changes = v.tickPulses.changes := by rw [pulses]
  refine ⟨v, made, fun c => ?_, record.trans changes, rest, ?_⟩
  · rw [← client c]
    unfold State.client
    rw [clients]
  · rw [frame] at pulses
    rw [clients, record]
    exact pulses

/-- Settles O23: the counts are lowered, each timed step moves its domain or takes it into FAULT under the laws that
the steps before it kept, the pulses follow, and Rest Control judges what they leave. -/
theorem tickLowersEveryCount : Obligations.TickLowersEveryCount := by
  refine ⟨fun s comes laws => ⟨_, s.begin.countTick, exec_tick comes, s.countTick_lowered, ?_⟩, fun s stays => ?_⟩
  · obtain ⟨made, laws⟩ := State.endTimers_made (List.finRange 8) (DomainLaws.ticked laws)
    exact TickFinished.of_pulses made laws s.begin.tick_pulses s.begin.tick_rest
  · exact State.occur_not (by rw [← Bool.not_eq_true, State.tickDue_iff]; exact stays) _ _

end WholeTick

end Sys2Proof.Machine

/-! ## Handing leases over -/

namespace Sys2Proof.Machine

open Sys2Proof.Statement

/-! ### A lease changed in its place, and one notice -/

variable {s t u v : State} {p c : Client} {r : Request} {h : Handle} {l l' : Lease}

/-- A lease changed for one that asks the same, at the end of a take: it stands in its slot, every other slot is as it
was, and no controller is handed anything (R7, R18). -/
theorem amended_alone (named : Names s h l) (asks : l'.asks = l.asks) (demand : DemandLaw s)
    (slots : t.slots = (s.putLease h.slot l').slots) (handed : OnlyHanded s t) :
    t.slot h.slot = { gen := h.gen, cond := .lease l' } ∧ OtherSlots s t h.slot ∧ t.ctrls = s.ctrls := by
  have at_ : s.leaseAt h.slot = some l := State.named_leaseAt (State.named_slot named)
  obtain ⟨slot, others⟩ := putLease_slots (t := t) (l' := l') named fun i => by
    simp only [State.slot, slots]
  refine ⟨slot, others, OnlyHanded.same handed fun d => ?_⟩
  calc t.tableDemand d
      = (s.putLease h.slot l').tableDemand d := State.tableDemand_congr slots d
    _ = s.tableDemand d := (State.putLease_asks at_ asks).tableDemand d
    _ = (s.ctrl d).leaseDemand := (demand d).symm

/-- One notice, sent where no queue has moved yet and no output: what it leaves in the queues and of ATTN_N (R155,
R160). -/
theorem notified_alone {k : NoticeKind} {sub : Subject} {det : Detail} (after : HeardAlike (v.notify c k sub det) t)
    (before : ∀ o, v.queue o = s.queue o) (fresh : v.changes = []) :
    t.queue c = (s.notify c k sub det).queue c ∧ (∀ o, o ≠ c → t.queue o = s.queue o)
      ∧ t.changes = attnChange s t c := by
  refine ⟨(after.queue c).trans (State.notify_queue_congr before), fun o other => ?_, ?_⟩
  · exact (after.queue o).trans ((State.notify_queue_ne other).trans (before o))
  · rw [after.changes, State.notify_changes, fresh, List.nil_append]
    unfold attnChange
    rw [after.queue, before]

/-- What the end of the take leaves of the queues and of the record of output changes. -/
theorem Accepted.heard {body : List Byte} (acc : Accepted s p r body u t) : HeardAlike u t :=
  .of_eq (by rw [acc.frame]) (by rw [acc.frame])

theorem ClaimTaken.heard (taken : ClaimTaken s u t) : HeardAlike u t :=
  .of_eq (by rw [taken.frame]) (by rw [taken.frame])

/-! ### LEASE.OFFER and LEASE.WITHDRAW (R61, R62, R64) -/

/-- A LEASE.OFFER whose checks pass (R61, R62). -/
theorem leaseOfferRule_of {target : Client} {window : Nat} (args : offerArgs r.body = some (h, target, window))
    (named : Names s h l) (owner : l.owner = .client p) (other : target ≠ p) (unoffered : l.offer = none)
    (unbound : l.binding = none) :
    leaseOfferRule p r.body s
      = accept ([byteOf target.1] ++ bytes2 window)
          ((s.putLease h.slot { l with offer := some { target := target, window := window } }).notify target .offered
            (.lease h) (.offered p l.domain l.level window)) := by
  simp only [leaseOfferRule, args, withForm_some, withOwned_of (State.named_slot named) owner, if_neg other, unoffered,
    unbound, Option.isSome_none, Bool.false_eq_true, if_false]

/-- A LEASE.WITHDRAW whose checks pass (R64). -/
theorem leaseWithdrawRule_of {o : Offer} (args : handleArgs r.body = some h) (named : Names s h l)
    (owner : l.owner = .client p) (offered : l.offer = some o) :
    leaseWithdrawRule p r.body s = accept (bytes2 o.window) (s.putLease h.slot { l with offer := none }) := by
  simp only [leaseWithdrawRule, args, withForm_some, withOwned_of (State.named_slot named) owner, offered]

/-- Settles O12: both rules change the offer of one lease, which asks what it asked; OFFER tells the target besides. -/
theorem offerOpensAndWithdrawRemoves : Obligations.OfferOpensAndWithdrawRemoves := by
  refine ⟨fun s p r h target window l turn args named owner other unoffered unbound demand => ?_,
    fun s p r h l o turn args named owner offered demand => ?_⟩
  · have reply := leaseOfferRule_of (s := s.begin) args named owner other unoffered unbound
    have told := State.notify_frame target .offered (.lease h) (.offered p l.domain l.level window)
      (s.begin.putLease h.slot { l with offer := some { target := target, window := window } })
    obtain ⟨t, exec_eq, acc⟩ := accepted turn (by decide) reply (by rw [told]; rfl) (by rw [told]; rfl)
    obtain ⟨slot, others, ctrls⟩ := amended_alone
      (l' := { l with offer := some { target := target, window := window } }) named rfl demand (by rw [acc.slots, told]; rfl) acc.handed
    obtain ⟨own, silent, changes⟩ := notified_alone (s := s) acc.heard (fun _ => rfl) rfl
    refine ⟨t, exec_eq, slot, others, own, silent, acc.answered, ?_, acc.judged⟩
    have frame := acc.frame
    rw [told, ctrls] at frame
    rw [← changes, frame]
    rfl
  · have reply := leaseWithdrawRule_of (s := s.begin) args named owner offered
    obtain ⟨t, exec_eq, acc⟩ := accepted turn (by decide) reply rfl rfl
    obtain ⟨slot, others, ctrls⟩ := amended_alone (l' := { l with offer := none }) named rfl demand acc.slots acc.handed
    refine ⟨t, exec_eq, slot, others, acc.answered, ?_, acc.judged⟩
    have frame := acc.frame
    rw [ctrls] at frame
    rw [frame]
    rfl

/-! ### LEASE.ACCEPT and LEASE.ADOPT (R65, R66, R167) -/

/-- The remaining term a timed or untimed term shows when it is full (R6, R180). -/
theorem fullTerm_shown (n : Nat) : (fullTerm n).getD 0 = n := by
  unfold fullTerm
  split
  · next zero => rw [zero]; rfl
  · rfl

/-- The answer body for a lease gained, whose remaining term is full (R66, R167). -/
theorem State.gainedBody_full (full : l.remaining = fullTerm l.term) :
    s.gainedBody l
      = [statusByte s l.domain l.level, byteOf l.domain.1, levelCode l.level] ++ bytes2 l.term ++ bytes2 l.term := by
  unfold State.gainedBody Lease.remainingShown
  rw [full, fullTerm_shown]
  rfl

/-- A LEASE.ACCEPT whose checks pass (R65, R66). -/
theorem leaseAcceptRule_of (args : handleArgs r.body = some h) (named : Names s h l) (owner : l.owner = .client c)
    (offered : l.offer.map Offer.target = some p) (quota : s.charge p < (s.client p).quota) :
    leaseAcceptRule p r.body s
      = accept
          ([statusByte s l.domain l.level, byteOf l.domain.1, levelCode l.level] ++ bytes2 l.term ++ bytes2 l.term)
          ((s.putLease h.slot (l.accepted p)).notify c .offerEnded (.lease h) (.ended p .accepted)) := by
  simp only [leaseAcceptRule, args, withForm_some, withLease_of (State.named_slot named), if_pos offered,
    withQuota_of quota, owner, State.gainedBody_full (l := l.accepted p) rfl]
  rfl

/-- A LEASE.ADOPT whose checks pass (R167). -/
theorem leaseAdoptRule_of {a : AdoptTerms} (args : adoptArgs r.body = some (h, a)) (named : Names s h l)
    (boot : l.owner = .boot) (quota : s.charge p < (s.client p).quota) :
    leaseAdoptRule p r.body s
      = accept
          ([statusByte s l.domain l.level, byteOf l.domain.1, levelCode l.level] ++ bytes2 a.term ++ bytes2 a.term)
          (s.putLease h.slot (l.adopted p a)).dropAdoption := by
  simp only [leaseAdoptRule, args, withForm_some, withLease_of (State.named_slot named), if_pos boot,
    withQuota_of quota, State.gainedBody_full (l := l.adopted p a) rfl]
  rfl

/-- The adoption window count is kept only where a BOOT lease remains (R165). -/
theorem State.dropAdoption_eq (s : State) :
    s.dropAdoption = { s with adoption := if s.hasBoot then s.adoption else none } := by
  unfold State.dropAdoption
  split <;> rfl

/-- Settles O13: both rules put the lease under its new owner, where it asks what it asked; ACCEPT tells the old owner,
ADOPT lets go of the adoption window with the last BOOT lease. -/
theorem acceptAndAdoptMoveOwnership : Obligations.AcceptAndAdoptMoveOwnership := by
  refine ⟨fun s p r h l old turn args named owner offered quota demand => ?_,
    fun s p r h a l turn args named boot quota demand => ?_⟩
  · have reply := leaseAcceptRule_of (s := s.begin) args named owner offered quota
    have told := State.notify_frame old .offerEnded (.lease h) (.ended p .accepted)
      (s.begin.putLease h.slot (l.accepted p))
    obtain ⟨t, exec_eq, acc⟩ := accepted turn (by decide) reply (by rw [told]; rfl) (by rw [told]; rfl)
    obtain ⟨slot, others, ctrls⟩ := amended_alone (l' := l.accepted p) named rfl demand (by rw [acc.slots, told]; rfl)
      acc.handed
    obtain ⟨own, silent, changes⟩ := notified_alone (s := s) acc.heard (fun _ => rfl) rfl
    refine ⟨t, exec_eq, slot, others, own, silent, acc.answered, ?_, acc.judged⟩
    have frame := acc.frame
    rw [told, ctrls] at frame
    rw [← changes, frame]
    rfl
  · have reply := leaseAdoptRule_of (s := s.begin) args named boot quota
    rw [State.dropAdoption_eq] at reply
    obtain ⟨t, exec_eq, acc⟩ := accepted turn (by decide) reply rfl rfl
    obtain ⟨slot, others, ctrls⟩ := amended_alone (l' := l.adopted p a) named rfl demand acc.slots acc.handed
    have remains : t.hasBoot = (s.begin.putLease h.slot (l.adopted p a)).hasBoot := State.hasBoot_congr acc.slots
    refine ⟨t, exec_eq, slot, others, ?_, acc.answered, ?_, acc.judged⟩
    · rw [remains, acc.frame]
      rfl
    · have frame := acc.frame
      rw [ctrls] at frame
      rw [frame]
      rfl

/-! ### Offer windows (R68) -/

/-- An offer-window expiry claim gone from those that wait. -/
def State.dropWindow (h : Handle) (s : State) : State := { s with windowClaims := s.windowClaims.erase h }

theorem State.takeWindow_ends {o : Offer} (named : Names s h l) (owner : l.owner = .client c)
    (offered : l.offer = some o) (ended : o.window = 0) :
    s.takeWindow h
      = ((s.dropWindow h).putLease h.slot { l with offer := none, windowMark := false }).notify c .offerEnded (.lease h)
          (.ended o.target .expired) := by
  have named : State.named { s with windowClaims := s.windowClaims.erase h } h = some l :=
    State.named_slot (s := s) named
  simp only [State.takeWindow, named, offered, if_pos ended, owner]
  rfl

theorem State.takeWindow_discards (named : s.named h = some l) (stands : ∀ o, l.offer = some o → o.window ≠ 0) :
    s.takeWindow h = (s.dropWindow h).putLease h.slot { l with windowMark := false } := by
  have named : State.named { s with windowClaims := s.windowClaims.erase h } h = some l := named
  simp only [State.takeWindow, named]
  cases offered : l.offer with
  | none => rfl
  | some o => exact if_neg (stands o offered)

theorem State.takeWindow_stale (stale : s.named h = none) : s.takeWindow h = s.dropWindow h := by
  have stale : State.named { s with windowClaims := s.windowClaims.erase h } h = none := stale
  simp only [State.takeWindow, stale]
  rfl

/-- The claim of a handle that waits is taken: what `takeWindow` does, then the end of the take. -/
theorem exec_offerWindowExpiry (running : s.running = true) (waits : h ∈ s.windowClaims)
    (ctrls : (s.begin.takeWindow h).ctrls = s.ctrls) :
    ∃ t, exec (.offerWindowExpiry h) s = .next t ∧ ClaimTaken s (s.begin.takeWindow h) t :=
  claim_taken running (decide_eq_true waits) (State.takeWindow_untimed h _) ctrls

/-- Settles O17: the take ends an offer whose window has run out and tells its owner; otherwise it clears the mark of
the lease the handle names, and does no more for a handle that is stale. -/
theorem offerExpiryEndsTheOffer : Obligations.OfferExpiryEndsTheOffer := by
  refine ⟨fun s h l o c running waits named owner offered ended demand => ?_,
    fun s h running waits demand stands => ?_⟩
  · have ends := State.takeWindow_ends (s := s.begin) named owner offered ended
    have told := State.notify_frame c .offerEnded (.lease h) (.ended o.target .expired)
      ((s.begin.dropWindow h).putLease h.slot { l with offer := none, windowMark := false })
    obtain ⟨t, exec_eq, taken⟩ := exec_offerWindowExpiry running waits (by rw [ends, told]; rfl)
    rw [ends] at taken
    obtain ⟨slot, others, ctrls⟩ := amended_alone (l' := { l with offer := none, windowMark := false }) named rfl demand
      (by rw [taken.slots, told]; rfl) taken.handed
    obtain ⟨own, silent, changes⟩ := notified_alone (s := s) taken.heard (fun _ => rfl) rfl
    refine ⟨t, exec_eq, slot, others, own, silent, ?_, taken.judged⟩
    have frame := taken.frame
    rw [told, ctrls] at frame
    rw [← changes, frame]
    rfl
  · cases names : s.named h with
    | some l =>
      have named : Names s h l := State.named_iff.1 names
      have discards := State.takeWindow_discards (s := s.begin) names (stands l · names)
      obtain ⟨t, exec_eq, taken⟩ := exec_offerWindowExpiry running waits (by rw [discards]; rfl)
      rw [discards] at taken
      obtain ⟨slot, others, ctrls⟩ := amended_alone (l' := { l with windowMark := false }) named rfl demand taken.slots
        taken.handed
      refine ⟨t, exec_eq, fun m same => ?_, nofun, others, ?_, taken.judged⟩
      · rw [← Option.some.inj same]
        exact slot
      · have frame := taken.frame
        rw [ctrls] at frame
        rw [frame]
        rfl
    | none =>
      have drops := State.takeWindow_stale (s := s.begin) names
      obtain ⟨t, exec_eq, taken⟩ := exec_offerWindowExpiry running waits (by rw [drops]; rfl)
      rw [drops] at taken
      have ctrls := taken.ctrls demand fun d => rfl
      refine ⟨t, exec_eq, nofun, fun _ => taken.slot h.slot, fun j _ => taken.slot j, ?_, taken.judged⟩
      have frame := taken.frame
      rw [ctrls] at frame
      rw [frame]
      rfl

end Sys2Proof.Machine

/-! ## The teardowns of a client -/

namespace Sys2Proof.Machine

open Sys2Proof.Statement

variable {s t u : State} {p c : Client} {r : Request}

/-! ### CLIENT.RESTART (R147, R149) -/

/-- What the take of an accepted request comes to where its rule may reach the port of another client: `Accepted`, with
every port but the requester's as the rule leaves it. -/
structure Replied (s : State) (p : Client) (r : Request) (body : List Byte) (u t : State) : Prop where
  own : t.port p
    = { state := .ready (answerOf s t p r .ok body), saved := some (answerOf s t p r .ok body)
        memory := some r.seq, priorDiscarded := false, busyDrop := false, torn := false }
  ports : ∀ o, o ≠ p → t.port o = u.port o
  turn : t.turn = p + 1
  handed : OnlyHanded s t
  frame : t = { u with ctrls := t.ctrls, ports := t.ports, turn := t.turn, rest := t.rest }
  judged : RestJudged s t

/-- A request that its rule accepts, which moves no controller and not Rest Control itself. -/
theorem replied {k : ReqKind} {body : List Byte} (turn : Turn s p r k)
    (reply : ruleOf k p r.body s.begin = accept body u) (ctrls : u.ctrls = s.ctrls) (rest : u.rest = s.rest) :
    ∃ t, exec (commandOf k) s = .next t ∧ Replied s p r body u t := by
  obtain ⟨running, next, rfl⟩ := turn
  have rested : (State.serve (ruleOf r.kind) p r s.begin).handOn.rest = s.rest := by
    rw [(State.handOn_untimed _).rest, State.serve_frame, reply]
    exact rest
  refine ⟨s.taken p r, exec_taken running next, ?_, fun o other => ?_, s.taken_turn p r, ?_, ?_, ?_⟩
  · simpa [reply, accept] using s.taken_port p r
  · rw [State.taken_port_ne s p r other, reply]
    rfl
  · refine OnlyHanded.congr (State.handOn_onlyHanded _) (s' := s) ?_ ?_ (State.judgeRest_aside _).slots
    · rw [State.serve_frame, reply]
      exact ctrls.symm
    · rw [State.taken, State.judgeRest_frame]
  · rw [State.taken_frame, State.serve_frame, reply]
    rfl
  · exact (State.judgeRest_rest _).trans (congrArg (fun x => judgedRest x _) rested)

/-- How many leases a restart of a client retires (R147 step 2). -/
theorem State.restartRetires_length (c : Client) (s : State) :
    (s.restartRetires c).length
      = s.leasesBySlot.countP (fun x => decide (x.2.owner = .client c ∧ x.2.survives = false)) := by
  have retires : (fun x : SlotNo × Lease => decide (x.2.owner = .client c) && !x.2.survives)
      = fun x => decide (x.2.owner = .client c ∧ x.2.survives = false) := by
    funext x
    simp [Bool.decide_and]
  unfold State.restartRetires
  rw [retires, ← List.countP_eq_length_filter]
  exact s.leases_perm.countP_eq _

/-- A CLIENT.RESTART whose checks pass (R149). -/
theorem clientRestartRule_of (args : codeArgs 4 r.body = some c) (role : s.supervisor = p) (other : c ≠ p) :
    clientRestartRule p r.body s
      = accept
          [byteOf (s.leasesBySlot.countP (fun x => decide (x.2.owner = .client c ∧ x.2.survives = false)))]
          (s.restart c (fun f => { f with orderedRestart := true })) := by
  simp only [clientRestartRule, args, withForm_some, withRole_of role, if_neg other, State.restartRetires_length]

/-- No lease is offered to its own owner (R59). -/
theorem LeaseLaw.offered_away (law : LeaseLaw s) (i : SlotNo) (l : Lease) (o : Offer) (at_ : s.leaseAt i = some l)
    (offered : l.offer = some o) : l.owner ≠ .client o.target := by
  obtain ⟨-, -, -, -, offers⟩ := leaseSound_iff.1 (((leaseLaw_iff s).1 law).lease i l at_)
  obtain ⟨-, away, -⟩ := offers o offered
  exact away

/-- Settles O37: the rule is a restart of the target, which clears that client's port; the requester's port takes
the answer. -/
theorem orderedRestartTearsTheClientDown : Obligations.OrderedRestartTearsTheClientDown := by
  intro s p r c law _ turn args role other
  have reply := clientRestartRule_of (s := s.begin) args role other
  have frame := State.restart_frame c (fun f => { f with orderedRestart := true }) s.begin
  unfold OnlyClients at frame
  obtain ⟨lease, vacant, watches, wake⟩ := Cleared.refl s.begin
  have torn := State.restart_restarted (s := s) (v := s.begin) (c := c)
    (f := fun f => { f with orderedRestart := true })
    (gone := fun _ m => decide (m.owner = .client c ∧ m.survives = false)) ⟨lease, vacant, watches, wake⟩
    (fun _ => rfl) (fun _ => rfl) rfl law.offered_away (fun i m _ => by simp [Bool.decide_and])
  have kept (o : Client) (other : o ≠ c) := State.restart_port_ne other (fun f => { f with orderedRestart := true })
    s.begin
  obtain ⟨t, exec_eq, answered⟩ := replied turn reply (by rw [frame]; rfl) (by rw [frame]; rfl)
  generalize s.begin.restart c (fun f => { f with orderedRestart := true }) = u at frame torn kept answered
  refine ⟨t, exec_eq, ?_, answered.handed, answered.own, fun o requester target => ?_, answered.turn, ?_,
    answered.judged⟩
  · obtain ⟨slots, watches, told, port, rest⟩ := torn
    rw [answered.frame]
    exact ⟨slots, watches, told, (answered.ports c other).trans port, rest⟩
  · exact (answered.ports o requester).trans (kept o target)
  · have whole := answered.frame
    rw [frame] at whole
    rw [whole]
    rfl

/-! ### Notices to all but one client -/

/-- The queues of all clients but `c` are alike, and the record of output changes has `first` ahead. -/
structure HeardApart (c : Client) (first : List PinChange) (s t : State) : Prop where
  queue : ∀ o, o ≠ c → t.queue o = s.queue o
  changes : t.changes = first ++ s.changes

/-- What a notice leaves in its queue rests on that queue alone (R155). -/
theorem State.notify_queue_own {k : NoticeKind} {sub : Subject} {det : Detail} (same : t.queue c = s.queue c) :
    (t.notify c k sub det).queue c = (s.notify c k sub det).queue c := by
  unfold State.notify
  simp only [same]
  split
  · simp only [State.putQueue_queue, if_true]
  · split <;> simp only [State.putQueue_queue, if_true]

theorem HeardApart.notify {first : List PinChange} {o : Client} (h : HeardApart c first s t) (other : o ≠ c)
    (k : NoticeKind) (sub : Subject) (det : Detail) :
    HeardApart c first (s.notify o k sub det) (t.notify o k sub det) := by
  have own := State.notify_queue_own (k := k) (sub := sub) (det := det) (h.queue o other)
  refine ⟨fun q away => ?_, ?_⟩
  · by_cases same : q = o
    · subst same
      exact own
    · rw [State.notify_queue_ne same, State.notify_queue_ne same, h.queue q away]
  · rw [State.notify_changes, State.notify_changes, h.changes, List.append_assoc]
    unfold attnChange
    rw [own, h.queue o other]

theorem HeardApart.appendAll {first : List PinChange} (h : HeardApart c first s t) (ns : List Note)
    (others : ∀ n ∈ ns, n.1 ≠ c) : HeardApart c first (appendAll s ns) (appendAll t ns) := by
  induction ns generalizing s t with
  | nil => exact h
  | cons n ns ih =>
    exact ih (h.notify (others n List.mem_cons_self) ..) fun m hm => others m (List.mem_cons_of_mem _ hm)

/-- The offerers told when a client is gone are other clients (R59, R71). -/
theorem LeaseLaw.goneNotes_others (law : LeaseLaw s) (gone : SlotNo → Lease → Bool) :
    ∀ n ∈ goneNotes s c gone, n.1 ≠ c := by
  intro n hn same
  obtain ⟨x, hx, owner⟩ := mem_toOwners hn
  obtain ⟨listed, chosen⟩ := List.mem_filter.1 hx
  have target : x.2.offer.map Offer.target = some c := of_decide_eq_true (Bool.and_eq_true_iff.1 chosen).1
  obtain ⟨o, offered, rfl⟩ := Option.map_eq_some_iff.1 target
  exact law.offered_away x.1 x.2 o (State.mem_leases.1 listed) offered (owner.trans (congrArg Owner.client same))

/-! ### The home-lost teardown (R145) -/

/-- The part as a home-lost teardown of the client finds it once the cause, the port and the queue are done: the offers
made to the client are left (R145 steps 1 to 3). -/
def State.silenced (c : Client) (s : State) : State :=
  (((s.setClient c { s.client c with homeLostPending := (s.client c).homeLostPending - 1 }).addCause c
    (fun f => { f with homeLost := true })).clearPort c).clearQueue c

theorem State.tearDown_eq (c : Client) (s : State) : s.tearDown c = (s.silenced c).endOffersTo c := rfl

theorem State.silenced_notices (c : Client) (s : State) :
    OnlyNotices (((s.setClient c { s.client c with homeLostPending := (s.client c).homeLostPending - 1 }).addCause c
      (fun f => { f with homeLost := true })).clearPort c) (s.silenced c) := State.putQueue_frame ..

theorem State.silenced_frame (c : Client) (s : State) :
    s.silenced c
      = { s with
          clients := (s.silenced c).clients, ports := (s.silenced c).ports, queues := (s.silenced c).queues
          changes := (s.silenced c).changes } := by
  have notices := s.silenced_notices c
  unfold OnlyNotices at notices
  rw [notices]
  rfl

theorem State.silenced_client (c : Client) (s : State) (o : Client) :
    (s.silenced c).client o
      = if o = c then
          { s.client c with
            causes := { (s.client c).causes with homeLost := true }
            homeLostPending := (s.client c).homeLostPending - 1 }
        else s.client o := by
  have notices := s.silenced_notices c
  unfold OnlyNotices at notices
  rw [notices]
  refine (State.setClient_client ..).trans ?_
  rw [State.setClient_client_self]
  split
  · rfl
  · next other => exact State.setClient_client_ne _ _ _ other

theorem State.silenced_port (c : Client) (s : State) (o : Client) :
    (s.silenced c).port o = if o = c then Port.initial else s.port o := by
  have notices := s.silenced_notices c
  unfold OnlyNotices at notices
  rw [notices]
  exact State.setPort_port ..

theorem State.silenced_queue (c : Client) (s : State) (o : Client) :
    (s.silenced c).queue o = if o = c then Queue.initial else s.queue o := State.putQueue_queue ..

theorem State.silenced_changes (c : Client) (s : State) :
    (s.silenced c).changes = s.changes ++ attnChange s (s.silenced c) c := State.putQueue_changes ..

/-- The offers made to a client ended, in a state with the table of `s`: their offerers are told (R71, R73). -/
theorem State.endOffersTo_told (slots : u.slots = s.slots) :
    HeardAlike (appendAll u (goneNotes s c (fun _ _ => false))) (u.endOffersTo c) := by
  have chosen : s.leases.filter (fun x => decide (x.2.offer.map Offer.target = some c) && !false)
      = u.leases.filter (offeredTo c) := by
    rw [State.leases_congr slots]
    exact List.filter_congr fun x _ => by rw [offeredTo_iff, Bool.not_false, Bool.and_true]
  unfold goneNotes
  rw [chosen]
  exact State.endOffers_told _ ⟨fun _ => rfl, rfl⟩ fun x _ => State.handleAt_congr slots x.1

/-- The end of the offers made to a client changes slots, queues and the record of output changes only (R71). -/
theorem State.endOffersTo_ended (c : Client) (s : State) :
    s.endOffersTo c
      = { s with
          slots := (s.endOffersTo c).slots, queues := (s.endOffersTo c).queues
          changes := (s.endOffersTo c).changes } := by
  have frame := s.endOffersTo_frame c
  have watches : (s.endOffersTo c).watches = s.watches := Vec.ext fun w => State.endOffersTo_watch w s
  have clients : (s.endOffersTo c).clients = s.clients := Vec.ext fun o => State.endOffersTo_client o s
  have ports := (s.endOffersTo_undisturbed c).ports
  unfold OnlyClients at frame
  rw [watches, clients, ports] at frame
  exact frame

/-- What a home-lost teardown leaves in the slots: every offer to the client ended (R145). -/
theorem State.tearDown_slots (c : Client) (s : State) : SlotsTornDown s (s.tearDown c) c (fun _ _ => false) := by
  have slots : (s.silenced c).slots = s.slots := by rw [State.silenced_frame]
  have slot (i : SlotNo) : (s.silenced c).slot i = s.slot i := by simp only [State.slot, slots]
  obtain ⟨ended, stands⟩ := (s.silenced c).endOffersTo_slot (c := c)
  intro i
  rw [State.tearDown_eq]
  cases cond : (s.slot i).cond with
  | lease l =>
    dsimp only
    rw [if_neg Bool.false_ne_true, ← slot i]
    exact ended i l ((State.leaseAt_congr slots i).trans (State.leaseAt_iff.2 cond))
  | free | reserved w =>
    refine (stands i ?_).trans (slot i)
    rw [State.leaseAt_congr slots]
    unfold State.leaseAt
    rw [cond]

/-- What a home-lost teardown leaves of the queues, and which ATTN_N it moves: first that of the client, then those of
the offerers (R145, R160, R161). -/
theorem State.tearDown_heard (law : LeaseLaw s) (fresh : s.changes = []) :
    (s.tearDown c).queue c = Queue.initial
    ∧ HeardApart c (attnChange s (s.tearDown c) c) (appendAll s (goneNotes s c (fun _ _ => false))) (s.tearDown c) := by
  have others := law.goneNotes_others (c := c) (fun _ _ => false)
  have told : HeardAlike (Statement.appendAll (s.silenced c) (goneNotes s c (fun _ _ => false))) (s.tearDown c) :=
    State.endOffersTo_told (by rw [State.silenced_frame])
  have own : (s.tearDown c).queue c = (s.silenced c).queue c :=
    (told.queue c).trans (appendAll_queue _ _ others)
  have attn : attnChange s (s.silenced c) c = attnChange s (s.tearDown c) c := by
    unfold attnChange
    rw [own]
  have silenced : HeardApart c (attnChange s (s.tearDown c) c) s (s.silenced c) := by
    refine ⟨fun o other => (s.silenced_queue c o).trans (if_neg other), ?_⟩
    rw [State.silenced_changes, fresh, attn, List.nil_append, List.append_nil]
  have apart := silenced.appendAll _ others
  refine ⟨own.trans ((s.silenced_queue c c).trans (if_pos rfl)), fun o other => ?_, ?_⟩
  · exact (told.queue o).trans (apart.queue o other)
  · exact told.changes.trans apart.changes

/-- A home-lost teardown leaves all but the table, the clients, their ports and queues (R145). -/
theorem State.tearDown_frame (c : Client) (s : State) :
    s.tearDown c
      = { s with
          slots := (s.tearDown c).slots, queues := (s.tearDown c).queues, clients := (s.silenced c).clients
          ports := (s.silenced c).ports, changes := (s.tearDown c).changes } := by
  have ended := (s.silenced c).endOffersTo_ended c
  have silenced := s.silenced_frame c
  rw [State.tearDown_eq]
  generalize s.silenced c = v at ended silenced ⊢
  generalize v.endOffersTo c = w at ended ⊢
  rw [ended, silenced]

/-- Settles O38: the cause, the port and the queue of the client first, then the offers made to it, whose owners are
other clients; a part that does not run does nothing. -/
theorem homeLostTeardownClearsPortAndQueue : Obligations.HomeLostTeardownClearsPortAndQueue := by
  refine ⟨fun s c law running raised => ?_, fun s c asleep => State.occur_not (by rw [asleep]; rfl) _ s⟩
  have able : (s.running && decide (0 < (s.client c).homeLostPending)) = true := by simp [running, raised]
  have frame := s.begin.tearDown_frame c
  have slots := s.begin.tearDown_slots c
  obtain ⟨own, apart⟩ := State.tearDown_heard (s := s.begin) (c := c) law rfl
  have judged := (s.begin.tearDown c).judgeRest_frame
  have rest : RestJudged s (s.begin.tearDown c).judgeRest := (State.judgeRest_rest _).trans
    (congrArg (fun r => judgedRest r _) (State.tearDown_untimed c s.begin).rest)
  have client := s.begin.silenced_client c
  have port := s.begin.silenced_port c
  refine ⟨_, State.occur_of able _ s, ?_⟩
  generalize (s.begin.tearDown c).judgeRest = t at judged rest
  generalize s.begin.tearDown c = u at frame slots own apart judged
  generalize s.begin.silenced c = v at frame client port
  have clients (o : Client) : t.client o = v.client o := by rw [judged, frame]; rfl
  have ports (o : Client) : t.port o = v.port o := by rw [judged, frame]; rfl
  have changes : t.changes
      = attnChange s t c ++ (appendAll s.begin (goneNotes s c (fun _ _ => false))).changes := by
    rw [judged]
    exact apart.changes
  refine ⟨?_, fun o other => ?_, ?_, fun o other => ?_, ?_, ?_, fun o other => ?_, ?_, rest⟩
  · rw [clients, client, if_pos rfl]; rfl
  · rw [clients, client, if_neg other]; rfl
  · rw [ports, port, if_pos rfl]
  · rw [ports, port, if_neg other]; rfl
  · rw [judged]; exact own
  · rw [judged]; exact slots
  · rw [judged]
    exact (apart.queue o other).trans (appendAll_queue_congr (s := s) (t := s.begin) _ (fun _ => rfl) o)
  · rw [← changes]
    have whole := judged
    rw [frame] at whole
    rw [whole]
    rfl

end Sys2Proof.Machine

/-! ## Where a demand change takes a controller -/

namespace Sys2Proof.Machine

open Sys2Proof.Statement

section DemandStep

variable {s t : State} {d : Dom} {r x : Ctrl} {xs : List PinChange} {run : Run} {l : Level}

/-! ### The permission that HELD compares with (R80, R95) -/

/-- Whether the parent of a domain permits it to start once it has entered HELD (R80). -/
def State.heldPermits (d : Dom) (s : State) : Bool := (s.enter d .held 0).permits d

theorem State.heldPermits_of_parent (irrefl : (s.ctrl d).setup.parent ≠ some d) : s.heldPermits d = s.permits d :=
  (State.enter_becomes .held 0 rfl).permits_stand rfl rfl irrefl

/-- No passage of a domain moves what its parent permits it in HELD. -/
theorem Becomes.heldPermits (h : Becomes d x xs s t) (setup : x.setup = (s.ctrl d).setup) :
    t.heldPermits d = s.heldPermits d := by
  have same (e : Dom) : ((t.enter d .held 0).ctrl e).state = ((s.enter d .held 0).ctrl e).state := by
    rw [State.enter_ctrl, State.enter_ctrl]
    split
    · rfl
    · next other => rw [h.ctrl, if_neg other]
  unfold State.heldPermits State.permits
  rw [State.enter_ctrl, State.enter_ctrl, if_pos rfl, if_pos rfl, h.here]
  dsimp only
  rw [setup]
  cases (s.ctrl d).setup.parent with
  | none => rfl
  | some p => dsimp only; rw [same]

theorem State.permits_held (held : (s.ctrl d).state = .held) : s.permits d = s.heldPermits d := by
  have same (e : Dom) : ((s.enter d .held 0).ctrl e).state = (s.ctrl e).state := by
    rw [State.enter_ctrl]
    split
    · next here => rw [here, held]
    · rfl
  unfold State.heldPermits State.permits
  rw [State.enter_ctrl, if_pos rfl]
  dsimp only
  cases (s.ctrl d).setup.parent with
  | none => rfl
  | some p => dsimp only; rw [same]

/-! ### A domain that stays -/

/-- A sound record is that of its own place (R87, R89). -/
theorem placed_self (sound : ctrlSound r = true) : placed r (r.state, r.timer) = r := by
  obtain ⟨pins, cold, -⟩ := ctrlSound_iff.1 sound
  have flag : (placed r (r.state, r.timer)).cold = r.cold := by
    rw [coldSound] at cold
    cases state : r.state with
    | linger l => cases l <;> simp_all [placed]
    | _ => simp_all [placed]
  have row : (placed r (r.state, r.timer)).pins = r.pins := by
    have same : (placed r (r.state, r.timer)).pins
        = rowPins { r with cold := (placed r (r.state, r.timer)).cold } := rfl
    rw [same, flag, ← pins]
  have whole : placed r (r.state, r.timer)
      = { r with cold := (placed r (r.state, r.timer)).cold, pins := (placed r (r.state, r.timer)).pins } := rfl
  rw [whole, flag, row]

theorem Goes.stands (at_ : s.ctrl d = r) (sound : ctrlSound r = true) : Goes d r (r.state, r.timer) s s := by
  unfold Goes
  rw [placed_self sound, orderedChanges_same]
  exact .refl at_

/-! ### Passages through HELD (R80, R83 to R85) -/

theorem State.enter_held_leads (at_ : s.ctrl d = r) (row : r.pins = r.heldRow) :
    Leads d { r with state := .held, timer := 0 } (heldPlace r (s.heldPermits d)) (s.enter d .held 0) (s.toHeld d) :=
  State.heldCompare_leads (State.enter_becomes .held 0 at_).here rfl rfl row

theorem State.lingerHold_toHeld_leads (at_ : s.ctrl d = r) (state : r.state = .linger .hold)
    (row : r.pins = r.heldRow) :
    Leads d r (heldPlace r (s.heldPermits d)) s (s.toHeld d) :=
  (State.enter_held_leads at_ row).of_held (State.enter_becomes .held 0 at_) state

theorem State.low_toHeld_goes (at_ : s.ctrl d = r) (row : r.pins = r.heldRow)
    (low : r.demand = none ∨ r.demand = some .hold) : Goes d r (heldPlace r (s.heldPermits d)) s (s.toHeld d) :=
  (State.enter_becomes .held 0 at_).trans ((State.enter_held_leads at_ row).goes (heldPlace_whole low _))

theorem State.low_leaveRunning_goes (at_ : s.ctrl d = r) (row : r.pins = r.runRow run) (warm : r.cold = false)
    (low : r.demand = none ∨ r.demand = some .hold) :
    Goes d r (heldPlace r (s.heldPermits d)) s (s.leaveRunning d) := by
  have isolated := State.driveIso_drives true at_
  have halted := isolated.trans (State.driveDclk_drives .stopped isolated.here)
  have permits := halted.heldPermits (by rw [at_])
  have held := State.low_toHeld_goes halted.here (by simp [row, Ctrl.runRow, Ctrl.heldRow, warm]) low
  rw [permits] at held
  refine (halted.trans (show Goes d _ (heldPlace r (s.heldPermits d)) _ _ from held)).as rfl ?_
  have running := (r.rate_running run).symm
  rcases heldPlace_low low (s.heldPermits d) with place | place | place
  all_goals
    rw [place]
    simp [placed, rowPins, row, warm, running, running.symm, Ctrl.runRow, Pins.offRow, orderedChanges]

theorem State.run_leaveLinger_goes (at_ : s.ctrl d = r) (row : r.pins = r.runRow run) (warm : r.cold = false) :
    Goes d r (fallPlace r (s.heldPermits d)) s (s.leaveLinger d run.level) := by
  have demand_eq : s.demand d = r.demand := by unfold State.demand; rw [at_]
  unfold fallPlace State.leaveLinger
  rw [demand_eq]
  rcases reach_cases r.demand with demand | demand | ⟨to_, demand⟩
  · rw [demand]
    cases run <;> exact State.low_leaveRunning_goes at_ row warm (.inl demand)
  · rw [demand]
    cases run <;> exact State.low_leaveRunning_goes at_ row warm (.inr demand)
  · rw [demand]
    cases to_ with
    | slow => cases run <;> exact State.toRun_goes at_ row warm .slow
    | full => cases run <;> exact State.toRun_goes at_ row warm .full

/-- A running domain whose demand has fallen lingers, or goes to its demand at once (R77, R84). -/
theorem State.toLingerRun_goes (at_ : s.ctrl d = r) (row : r.pins = r.runRow run) (warm : r.cold = false) :
    Goes d r (lingerRunPlace r (s.heldPermits d) run) s (s.toLingerRun d run) := by
  have entered := State.enter_becomes (.linger run.level) r.setup.linger at_
  have permits := entered.heldPermits (by rw [at_])
  unfold State.toLingerRun lingerRunPlace
  dsimp only
  rw [at_, entered.here]
  dsimp only
  split
  · have left := State.run_leaveLinger_goes entered.here row warm
    rw [permits] at left
    exact entered.trans left
  · refine entered.as ?_ ?_
    · cases run <;> simp [placed, rowPins, row, warm, Ctrl.runRow, Ctrl.rate, Run.level]
    · cases run <;> simp [placed, rowPins, row, Ctrl.runRow, Ctrl.rate, Run.level, orderedChanges]

/-- The end of a linger, or its cancel (R84, R85). -/
theorem State.linger_leaves (at_ : s.ctrl d = r) (state : r.state = .linger l) (sound : ctrlSound r = true) :
    Leads d r (lingerPlace r (s.heldPermits d) l) s (s.leaveLinger d l) := by
  have demand_eq : s.demand d = r.demand := by unfold State.demand; rw [at_]
  obtain ⟨pins, cold, -⟩ := ctrlSound_iff.1 sound
  rw [rowPins, state] at pins
  rw [coldSound, state] at cold
  cases l with
  | hold =>
    unfold State.leaveLinger lingerPlace
    rw [demand_eq]
    cases demand : r.demand with
    | none => rw [if_pos rfl]; exact (State.toDischarge_goes at_ pins).leads nofun
    | some m => rw [if_neg nofun]; exact State.lingerHold_toHeld_leads at_ state pins
  | slow => exact (State.run_leaveLinger_goes (run := .slow) at_ pins (by simpa using cold)).leads (fallPlace_whole _)
  | full => exact (State.run_leaveLinger_goes (run := .full) at_ pins (by simpa using cold)).leads (fallPlace_whole _)

theorem State.held_compares (at_ : s.ctrl d = r) (held : r.state = .held) (sound : ctrlSound r = true) :
    Leads d r (heldPlace r (s.heldPermits d)) s (s.heldCompare d) := by
  obtain ⟨pins, -, timer, -⟩ := ctrlSound_iff.1 sound
  rw [rowPins, held] at pins
  rw [held] at timer
  rw [← State.permits_held (by rw [at_]; exact held)]
  exact State.heldCompare_leads at_ held (timer.resolve_left nofun) pins

/-! ### The demand changes of a start (R82, R88) -/

/-- A demand for a running level only sets the level that a start goes to (R82). -/
theorem State.retarget_goes {from_ : Run} (at_ : s.ctrl d = r) (state : r.state = .starting from_)
    (row : r.pins = r.startRow from_) (run : Run) :
    Goes d r (.starting run, r.timer) s
      ((s.modCtrl d (fun r => { r with state := .starting run })).driveDclk d (s.rate d run)) := by
  have aimed := State.modCtrl_becomes (fun r => { r with state := .starting run }) at_
  have clocked := aimed.trans (State.driveDclk_drives (r.rate run) aimed.here)
  rw [State.rate_eq at_]
  refine clocked.as ?_ ?_
  · cases run <;> simp [placed, rowPins, row, Ctrl.startRow, Ctrl.heldRow, Ctrl.rate]
  · cases run <;> cases from_ <;>
      simp [placed, rowPins, row, Ctrl.startRow, Ctrl.heldRow, Ctrl.rate, orderedChanges]

/-- Without a demand for a running level a start is given up (R80, R88). -/
theorem State.cancelStart_goes (at_ : s.ctrl d = r) (row : r.pins = r.startRow run)
    (low : r.demand = none ∨ r.demand = some .hold) :
    Goes d r (heldPlace r (s.heldPermits d)) s ((s.driveDclk d .stopped).toHeld d) := by
  have clocked := State.driveDclk_drives .stopped at_
  have permits := clocked.heldPermits (by rw [at_])
  have held := State.low_toHeld_goes clocked.here (by rw [row]; rfl) low
  rw [permits] at held
  refine (clocked.trans (show Goes d _ (heldPlace r (s.heldPermits d)) _ _ from held)).as rfl ?_
  have running := (r.rate_running run).symm
  rcases heldPlace_low low (s.heldPermits d) with place | place | place
  all_goals
    rw [place]
    simp [placed, rowPins, row, running, running.symm, Ctrl.startRow, Ctrl.heldRow, Pins.offRow, orderedChanges]

/-! ### The table of chapter 5 (R78 to R86, R116) -/

theorem lingerRunPlace_whole (permitted : Bool) : (lingerRunPlace r permitted run).1 ≠ .fault := by
  unfold lingerRunPlace
  split
  · exact fallPlace_whole _
  · nofun

/-- From SLOW or FULL a demand change stays, goes to the other level or lingers (R83, R84). -/
theorem State.run_demandStep_leads (at_ : s.ctrl d = r) (sound : ctrlSound r = true) (state : r.state = run.state) :
    Leads d r (demandPlace r (s.heldPermits d)) s (s.demandStep d) := by
  obtain ⟨pins, cold, timer, -⟩ := ctrlSound_iff.1 sound
  have demand_eq : s.demand d = r.demand := by unfold State.demand; rw [at_]
  have row : r.pins = r.runRow run := by rw [pins, rowPins, state]; cases run <;> rfl
  have warm : r.cold = false := by rw [coldSound, state] at cold; cases run <;> simpa [Run.state] using cold
  have stays := (Goes.stands at_ sound).leads (by rw [state]; exact run.state_ne_fault)
  rw [timer.resolve_left (by rw [state]; cases run <;> nofun), state] at stays
  have lingers := (State.toLingerRun_goes at_ row warm).leads (lingerRunPlace_whole _)
  unfold State.demandStep demandPlace
  rw [at_, demand_eq, state]
  rcases reach_cases r.demand with demand | demand | ⟨to_, demand⟩
  · rw [demand]; cases run <;> exact lingers
  · rw [demand]; cases run <;> exact lingers
  · rw [demand]
    cases run with
    | slow => cases to_ with
      | slow => exact stays
      | full => exact (State.toRun_goes at_ row warm .full).leads nofun
    | full => cases to_ with
      | slow => exact lingers
      | full => exact stays

/-- From every state but FAULT, where nothing leads, and OFF, from where a demand powers the domain, a demand change
leads where the table says (R78, R80 to R85, R116). -/
theorem State.demandStep_leads (at_ : s.ctrl d = r) (sound : ctrlSound r = true) (whole : r.state ≠ .fault)
    (idle : r.state = .off → r.demand = none) :
    Leads d r (demandPlace r (s.heldPermits d)) s (s.demandStep d) := by
  obtain ⟨pins, -, timer, -⟩ := ctrlSound_iff.1 sound
  have stays := (Goes.stands at_ sound).leads whole
  have demand_eq : s.demand d = r.demand := by unfold State.demand; rw [at_]
  have runs (run : Run) := State.run_demandStep_leads (run := run) at_ sound
  unfold State.demandStep demandPlace at runs ⊢
  rw [at_, demand_eq] at runs ⊢
  cases state : r.state with
  | fault => exact absurd state whole
  | off =>
    rw [idle state]
    rwa [timer.resolve_left (by rw [state]; nofun), state] at stays
  | powering | discharge => rwa [state] at stays
  | held => exact State.held_compares at_ state sound
  | slow => simpa only [state] using runs .slow state
  | full => simpa only [state] using runs .full state
  | starting from_ =>
    have row : r.pins = r.startRow from_ := by rw [pins, rowPins, state]; cases from_ <;> rfl
    rcases reach_cases r.demand with demand | demand | ⟨run, demand⟩
    · rw [demand]
      exact (State.cancelStart_goes at_ row (.inl demand)).leads (heldPlace_whole (.inl demand) _)
    · rw [demand]
      exact (State.cancelStart_goes at_ row (.inr demand)).leads (heldPlace_whole (.inr demand) _)
    · rw [demand]
      cases run with
      | slow => exact (State.retarget_goes at_ state row .slow).leads nofun
      | full => exact (State.retarget_goes at_ state row .full).leads nofun
  | linger l =>
    rw [state] at stays
    by_cases met : reachRank (some l) ≤ reachRank r.demand
    · simp only [if_pos met, if_neg (Nat.not_lt.2 met)]
      exact State.linger_leaves at_ state sound
    · simp only [if_neg met, if_pos (Nat.not_le.1 met)]
      exact stays

end DemandStep

end Sys2Proof.Machine

/-! ## Where the passages of an event come to -/

namespace Sys2Proof.Machine

open Sys2Proof.Statement

section Comes

variable {s t u : State} {d e : Dom} {r x : Ctrl} {xs : List PinChange} {place : DomState × Nat} {cause : FaultCause}

/-- Passages take a domain with the record `r` to a place: every other controller stands, and of a client's record its
home-lost events alone move. -/
structure Lands (d : Dom) (r : Ctrl) (place : DomState × Nat) (s t : State) : Prop where
  ctrl : ∀ e, t.ctrl e = replaced s.ctrl d (placed r place) e
  client : ∀ o, ∃ n, t.client o = (s.client o).losing n

/-- The passages of an event come to a place, or into FAULT. -/
def Comes (d : Dom) (r : Ctrl) (place : DomState × Nat) (s t : State) : Prop :=
  (∃ cause, Fails d r cause s t) ∨ Lands d r place s t

theorem Lands.here (h : Lands d r place s t) : t.ctrl d = placed r place := by rw [h.ctrl, replaced, if_pos rfl]

theorem Lands.other (h : Lands d r place s t) (other : e ≠ d) : t.ctrl e = s.ctrl e := by
  rw [h.ctrl, replaced, if_neg other]

theorem Goes.lands (h : Goes d r place s t) : Lands d r place s t where
  ctrl := Becomes.ctrl h
  client o := ⟨0, (Becomes.frame h).client o⟩

theorem Leads.comes (h : Leads d r place s t) : Comes d r place s t := by
  unfold Leads at h
  split at h
  · exact .inl ⟨_, h⟩
  · exact .inr (Goes.lands h)

/-- A domain in HELD may find itself permitted before and after passages of its own alike. -/
theorem Lands.permits (h : Lands d r place s t) (at_ : s.ctrl d = r) (held : place.1 = .held) :
    t.permits d = s.heldPermits d := by
  have state (p : Dom) : (t.ctrl p).state = ((s.enter d .held 0).ctrl p).state := by
    rw [h.ctrl, State.enter_ctrl, replaced]
    split
    · exact held
    · rfl
  unfold State.heldPermits State.permits
  rw [h.here, State.enter_ctrl, if_pos rfl, at_]
  change (match r.setup.parent with | none => true | some p => _)
    = (match r.setup.parent with | none => true | some p => _)
  cases r.setup.parent with
  | none => rfl
  | some p => dsimp only; rw [state]; rfl

/-! ### Powering (R79, R86) -/

theorem State.tellGranted_notices (d : Dom) (before : Reach) (s : State) : OnlyNotices s (s.tellGranted d before) := by
  unfold State.tellGranted
  split
  · rfl
  · exact foldl_keeps _ OnlyNotices.refl OnlyNotices.trans _ (fun _ _ => State.notifyOwner_frame ..) _ _

theorem OnlyNotices.client (h : OnlyNotices s t) (o : Client) : t.client o = s.client o := by
  unfold OnlyNotices at h; rw [h]; rfl

theorem State.permits_congr (ctrl : ∀ e, t.ctrl e = s.ctrl e) (d : Dom) : t.permits d = s.permits d := by
  unfold State.permits
  simp only [ctrl]

theorem heldPlace_present_whole (present : r.pgood = true) (permitted : Bool) : (heldPlace r permitted).1 ≠ .fault := by
  by_cases wanted : r.demand = none
  · exact heldPlace_whole (.inl wanted) permitted
  · rcases heldPlace_present present wanted permitted with place | ⟨run, place | place⟩ <;> rw [place]
    · nofun
    · nofun
    · exact run.state_ne_fault

/-- The end of POWERING with PGOOD present (R79, R80). -/
theorem State.endPowering_lands (at_ : s.ctrl d = r) (row : r.pins = r.heldRow) (present : r.pgood = true) :
    Lands d r (heldPlace r (s.heldPermits d)) s (s.endPowering d) := by
  have entered := State.enter_becomes .held 0 at_
  have granted := State.tellGranted_notices d none (s.enter d .held 0)
  have compares {u : State} (notices : OnlyNotices (s.enter d .held 0) u) :
      Lands d r (heldPlace r (s.heldPermits d)) s (u.heldCompare d) := by
    have leads := State.heldCompare_leads ((notices.ctrl d).trans entered.here) rfl rfl row
    rw [State.permits_congr notices.ctrl] at leads
    have goes := leads.goes (heldPlace_present_whole present _)
    refine ⟨fun e => ?_, fun o => ⟨0, ?_⟩⟩
    · rw [Becomes.ctrl goes, notices.ctrl, entered.ctrl]
      unfold replaced
      split <;> rfl
    · rw [(Becomes.frame goes).client, notices.client, entered.frame.client]
      rfl
  rw [State.endPowering_eq]
  split
  · exact compares granted
  · exact compares (.refl _)

/-- A domain powered from a cold state (R79). -/
theorem State.toPowering_lands (at_ : s.ctrl d = r) (off : r.pins = Pins.offRow) (cold : r.cold = true) :
    Lands d r (powerPlace r (s.heldPermits d)) s (s.toPowering d) := by
  have ramped := State.ramped_becomes at_ off
  cases pgood : r.pgood with
  | false =>
    rw [State.toPowering_ramps at_ off pgood]
    unfold powerPlace
    rw [pgood]
    exact ⟨ramped.ctrl, fun o => ⟨0, ramped.frame.client o⟩⟩
  | true =>
    have ended := State.endPowering_lands ramped.here (by simp [Ctrl.heldRow]) pgood
    rw [State.toPowering_rose at_ off pgood]
    unfold powerPlace
    rw [pgood, if_pos rfl]
    rw [ramped.heldPermits (by rw [at_])] at ended
    refine ⟨fun e => ?_, fun o => ?_⟩
    · rw [ended.ctrl]
      unfold replaced
      split
      · change placed { r with cold := true } (heldPlace r (s.heldPermits d)) = placed r _
        rw [← cold]
      · next other => rw [ramped.ctrl, if_neg other]
    · obtain ⟨n, client⟩ := ended.client o
      exact ⟨n, by rw [client, ramped.frame.client]⟩

/-- The end of DISCHARGE (R78, R86, R89). -/
theorem State.toOff_lands (at_ : s.ctrl d = r) (off : r.pins = Pins.offRow) (cold : r.cold = true) :
    Lands d r (if r.demand = none then (.off, 0) else powerPlace r (s.heldPermits d)) s (s.toOff d) := by
  have idle := State.enter_becomes .off 0 at_
  have entered : Becomes d { r with state := .off, timer := 0 } [] s ((s.enter d .off 0).setCold d true) :=
    (idle.trans (State.setCold_becomes true idle.here)).as (by rw [← cold]) rfl
  have permits := entered.heldPermits (by rw [at_])
  have lost (o : Client) : ∃ n, ((((s.enter d .off 0).setCold d true).raiseHomeLost d).client o)
      = (s.client o).losing n := ⟨_, by rw [State.raiseHomeLost_client, entered.frame.client]⟩
  have ctrl (e : Dom) : (((s.enter d .off 0).setCold d true).raiseHomeLost d).ctrl e
      = ((s.enter d .off 0).setCold d true).ctrl e := State.raiseHomeLost_ctrl ..
  unfold State.toOff
  dsimp only
  generalize ((s.enter d .off 0).setCold d true).raiseHomeLost d = v at lost ctrl ⊢
  have here : v.ctrl d = _ := (ctrl d).trans entered.here
  have demand : v.demand d = r.demand := by unfold State.demand; rw [here]; rfl
  have permits' : v.heldPermits d = s.heldPermits d := by
    rw [← permits]
    exact State.permits_congr (fun e => by rw [State.enter_ctrl, State.enter_ctrl, ctrl, ctrl]) d
  rw [demand]
  split
  · refine ⟨fun e => ?_, lost⟩
    rw [ctrl, entered.ctrl]
    simp [replaced, placed, rowPins, off, cold]
  · have up := State.toPowering_lands here off cold
    rw [permits'] at up
    refine ⟨fun e => ?_, fun o => ?_⟩
    · rw [up.ctrl]
      unfold replaced
      split
      · rfl
      · next other => rw [ctrl, entered.ctrl, if_neg other]
    · obtain ⟨n, first⟩ := lost o
      obtain ⟨m, client⟩ := up.client o
      exact ⟨n + m, by rw [client, first]; simp [ClientRec.losing, Nat.add_assoc]⟩

/-! ### The passages of each event -/

theorem Lands.stands (at_ : s.ctrl d = r) (sound : ctrlSound r = true) : Lands d r (r.state, r.timer) s s :=
  Goes.lands (Goes.stands at_ sound)

theorem State.demandStep_comes (at_ : s.ctrl d = r) (sound : ctrlSound r = true) :
    Comes d r (demandPlace r (s.heldPermits d)) s (s.demandStep d) := by
  obtain ⟨pins, cold, -⟩ := ctrlSound_iff.1 sound
  have demand_eq : s.demand d = r.demand := by unfold State.demand; rw [at_]
  by_cases fault : r.state = .fault
  · have stays : s.demandStep d = s := by unfold State.demandStep; rw [at_, fault]
    have place : demandPlace r (s.heldPermits d) = (r.state, r.timer) := by unfold demandPlace; rw [fault]
    rw [stays, place]
    exact .inr (.stands at_ sound)
  by_cases powers : r.state = .off ∧ r.demand ≠ none
  · obtain ⟨off, wanted⟩ := powers
    obtain ⟨m, demand⟩ := Option.ne_none_iff_exists'.1 wanted
    rw [rowPins, off] at pins
    rw [coldSound, off] at cold
    have up := State.toPowering_lands at_ pins cold
    unfold State.demandStep demandPlace
    rw [at_, demand_eq, off, demand]
    exact .inr up
  · exact (State.demandStep_leads at_ sound fault fun off => by_contra fun wanted => powers ⟨off, wanted⟩).comes

/-- Where a parent change takes a controller (R80, R99). -/
def parentPlace (r : Ctrl) (permitted : Bool) : DomState × Nat :=
  if r.state = .held then heldPlace r permitted else (r.state, r.timer)

theorem State.parentStep_leads (at_ : s.ctrl d = r) (held : r.state = .held) (sound : ctrlSound r = true) :
    Leads d r (heldPlace r (s.heldPermits d)) s (s.parentStep d) := by
  have step : s.parentStep d = s.heldCompare d := by unfold State.parentStep; rw [at_, if_pos held]
  rw [step]
  exact State.held_compares at_ held sound

theorem State.parentStep_stays (away : (s.ctrl d).state ≠ .held) : s.parentStep d = s := by
  unfold State.parentStep; rw [if_neg away]

theorem State.parentStep_comes (at_ : s.ctrl d = r) (sound : ctrlSound r = true) :
    Comes d r (parentPlace r (s.heldPermits d)) s (s.parentStep d) := by
  unfold parentPlace
  split
  · next held => exact (State.parentStep_leads at_ held sound).comes
  · next away =>
    rw [State.parentStep_stays (by rwa [at_])]
    exact .inr (.stands at_ sound)

/-- Where a PGOOD that becomes present takes a controller (R79). -/
def presentPlace (r : Ctrl) (permitted : Bool) : DomState × Nat :=
  if r.state = .powering then heldPlace r permitted else (r.state, r.timer)

theorem State.pgoodStep_comes (at_ : s.ctrl d = r) (sound : ctrlSound r = true) (present : r.pgood = true) :
    Comes d r (presentPlace r (s.heldPermits d)) s (s.pgoodStep d) := by
  obtain ⟨pins, cold, -⟩ := ctrlSound_iff.1 sound
  unfold presentPlace State.pgoodStep
  rw [at_]
  split
  · next powering =>
    rw [rowPins, powering] at pins
    rw [coldSound, powering] at cold
    have cold : r.cold = true := cold
    exact .inr (State.endPowering_lands at_ (by rw [pins, Ctrl.heldRow, cold]) present)
  · exact .inr (.stands at_ sound)

theorem State.toFault_fails (at_ : s.ctrl d = r) (cause : FaultCause)
    (plain : cause ≠ .recheck) : Fails d r cause s (s.toFault d cause) :=
  ⟨s, r, (Becomes.refl at_).as rfl (orderedChanges_same ..).symm, by simp [faultedFrom, plain], rfl, rfl⟩

theorem State.lossStep_comes (at_ : s.ctrl d = r) (sound : ctrlSound r = true) :
    Comes d r (r.state, r.timer) s (s.lossStep d) := by
  unfold State.lossStep
  split
  · exact .inl ⟨_, State.toFault_fails at_ .loss nofun⟩
  · exact .inr (.stands at_ sound)

theorem State.endStep_comes (at_ : s.ctrl d = r) (sound : ctrlSound r = true) :
    Comes d r (endPlace r (s.heldPermits d)) s (s.endStep d) := by
  obtain ⟨pins, cold, -⟩ := ctrlSound_iff.1 sound
  have stays : Comes d r (r.state, r.timer) s s := .inr (.stands at_ sound)
  rw [rowPins] at pins
  rw [coldSound] at cold
  unfold State.endStep endPlace
  rw [at_]
  cases state : r.state with
  | off | held | slow | full | fault => rwa [state] at stays
  | powering =>
    rw [state] at stays
    cases r.pgood with
    | true => exact stays
    | false => exact .inl ⟨_, State.toFault_fails at_ .ramp nofun⟩
  | starting run =>
    exact (State.completeStart_leads at_ state (by rw [pins, state]; cases run <;> rfl)).comes
  | linger l => exact (State.linger_leaves at_ state sound).comes
  | discharge =>
    rw [state] at pins cold
    exact .inr (State.toOff_lands at_ pins cold)

/-- DOMAIN.CLEAR takes a faulted domain to DISCHARGE (R117). -/
theorem State.clear_lands (at_ : s.ctrl d = r) (sound : ctrlSound r = true) (faulted : r.state = .fault) :
    Lands d r (.discharge, r.setup.discharge) s (s.toDischarge d) := by
  obtain ⟨pins, cold, -⟩ := ctrlSound_iff.1 sound
  rw [rowPins, faulted] at pins
  rw [coldSound, faulted] at cold
  have entered := State.enter_becomes .discharge r.setup.discharge at_
  have cooled := entered.trans (State.setCold_becomes true entered.here)
  have reset := cooled.trans (State.driveDrst_drives true cooled.here)
  have unpowered := reset.trans (State.drivePen_drives false reset.here)
  have step : s.toDischarge d
      = (((s.enter d .discharge r.setup.discharge).setCold d true).driveDrst d true).drivePen d false := by
    unfold State.toDischarge; rw [at_]
  rw [step]
  refine ⟨fun e => (unpowered.ctrl e).trans ?_, fun o => ⟨0, unpowered.frame.client o⟩⟩
  unfold replaced
  split
  · simp [placed, rowPins, pins, Pins.offRow]
  · rfl

end Comes

end Sys2Proof.Machine

/-! ## Outputs, timers and CRST_N through an event -/

namespace Sys2Proof.Machine

open Sys2Proof.Statement

/-! ### What the neighbours of a domain are told leaves of each record (R98, R99) -/

section Told

variable {s t u : State} {d e : Dom} {x y z : Ctrl}

/-- A record that was handed something: its counts, its demands and its marks may have moved, no mark is gone, and a
demand change waits where the demand moved. -/
structure Ctrl.Told (x y : Ctrl) : Prop where
  same : y = { x with
    leaseDemand := y.leaseDemand, derivedDemand := y.derivedDemand, counts := y.counts, demandPending := y.demandPending
    parentPending := y.parentPending }
  pends : x.demandPending = true → y.demandPending = true
  called : x.parentPending = true → y.parentPending = true
  moved : y.demandPending = true ∨ y.demand = x.demand

theorem Ctrl.Told.refl (x : Ctrl) : x.Told x := ⟨rfl, id, id, .inr rfl⟩

theorem Ctrl.Told.trans (h : x.Told y) (k : y.Told z) : x.Told z := by
  refine ⟨?_, k.pends ∘ h.pends, k.called ∘ h.called, ?_⟩
  · rw [k.same, h.same]
  · rcases k.moved with pends | stands
    · exact .inl pends
    · exact h.moved.imp k.pends stands.trans

theorem Ctrl.Told.sound (h : x.Told y) : ctrlSound y = ctrlSound x := by rw [h.same]; rfl
theorem Ctrl.Told.state (h : x.Told y) : y.state = x.state := by rw [h.same]
theorem Ctrl.Told.setup (h : x.Told y) : y.setup = x.setup := by rw [h.same]
theorem Ctrl.Told.timer (h : x.Told y) : y.timer = x.timer := by rw [h.same]
theorem Ctrl.Told.pgood (h : x.Told y) : y.pgood = x.pgood := by rw [h.same]
theorem Ctrl.Told.cold (h : x.Told y) : y.cold = x.cold := by rw [h.same]
theorem Ctrl.Told.lossPending (h : x.Told y) : y.lossPending = x.lossPending := by rw [h.same]

/-- No event that waited is gone. -/
theorem Ctrl.Told.waits (h : x.Told y) (waits : x.eventWaits = true) : y.eventWaits = true := by
  simp only [Ctrl.eventWaits, Bool.or_eq_true, h.lossPending] at waits ⊢
  exact waits.imp_left fun marked => marked.imp h.pends h.called

theorem Ctrl.hand_told (x : Ctrl) (lease derived : Reach) : x.Told (x.hand lease derived) := by
  refine ⟨rfl, fun pends => ?_, id, ?_⟩
  · simp [Ctrl.hand, pends]
  · by_cases stands : reachMax lease derived = x.demand
    · exact .inr stands
    · exact .inl (by simp [Ctrl.hand, stands])

theorem State.tellChildren_told (d : Dom) (before : Reach) (s : State) (e : Dom) :
    (s.ctrl e).Told ((s.tellChildren d before).ctrl e) := by
  rw [State.tellChildren_ctrl]
  generalize s.ctrl e = x
  split
  · exact ⟨rfl, id, fun _ => rfl, .inr rfl⟩
  · exact .refl x

theorem State.recount_told (d : Dom) (s : State) (e : Dom) : (s.ctrl e).Told ((s.recount d).ctrl e) := by
  rw [State.recount_ctrl]
  split
  · next here =>
    subst here
    generalize s.ctrl e = x
    exact ⟨rfl, id, id, .inr rfl⟩
  · exact .refl _

theorem State.recomputeParent_told (d : Dom) (s : State) (e : Dom) :
    (s.ctrl e).Told ((s.recomputeParent d).ctrl e) := by
  rw [State.recomputeParent_ctrl]
  generalize s.ctrl e = x
  split
  · exact Ctrl.hand_told x _ _
  · exact .refl x

theorem State.handTree_told (d : Dom) (before : Reach) (s : State) (e : Dom) :
    (s.ctrl e).Told ((s.handTree d before).ctrl e) :=
  ((s.tellChildren_told d before e).trans (State.recount_told d _ e)).trans (State.recomputeParent_told d _ e)

theorem State.handNeighbours_told (d : Dom) (before : Reach) (s : State) (e : Dom) :
    (s.ctrl e).Told ((s.handNeighbours d before).ctrl e) := by
  rw [State.handNeighbours_eq, State.syncHome_ctrl]
  exact s.handTree_told d before e

end Told

/-! ### Timers (R77, R79) -/

section Timers

variable {s t : State} {d e : Dom} {r x y : Ctrl} {place : DomState × Nat} {late : Dom → Prop}

/-- A domain in POWERING waits for PGOOD, and unless its timer is still to be looked at no timer that has run out stands
(R77, R79). -/
structure Ctrl.Runs (r : Ctrl) (late : Prop) : Prop where
  sound : ctrlSound r = true
  ramp : r.state = .powering → r.pgood = false
  ticks : ¬ late → timed r.state = true → 0 < r.timer

theorem Ctrl.Runs.told {late : Prop} (h : x.Runs late) (told : x.Told y) : y.Runs late where
  sound := told.sound.trans h.sound
  ramp := by rw [told.state, told.pgood]; exact h.ramp
  ticks := by rw [told.state, told.timer]; exact h.ticks

/-- A place at which an event may leave a controller: its timer fits and has ticks left, and POWERING waits for PGOOD.
-/
structure Lasts (r : Ctrl) (place : DomState × Nat) : Prop where
  fits : TimerFits place
  ticks : timed place.1 = true → 0 < place.2
  ramp : place.1 = .powering → r.pgood = false

theorem Lasts.placed (h : Lasts r place) (sound : ctrlSound r = true) (late : Prop) : (placed r place).Runs late :=
  ⟨ctrlSound_placed sound h.fits, h.ramp, fun _ => h.ticks⟩

theorem Ctrl.Runs.lasts (h : r.Runs False) : Lasts r (r.state, r.timer) := by
  obtain ⟨-, -, timer, bound, -⟩ := ctrlSound_iff.1 h.sound
  exact ⟨⟨timer, bound⟩, h.ticks id, h.ramp⟩

theorem Lasts.zero (state : DomState) (untimed : timed state = false) : Lasts r (state, 0) where
  fits := .zero _
  ticks runs := by rw [untimed] at runs; cases runs
  ramp here := by rw [show state = .powering from here] at untimed; cases untimed

theorem Run.state_untimed (run : Run) : timed run.state = false := by cases run <;> rfl

theorem lingerHoldPlace_lasts (setup : setupSound r.setup = true) : Lasts r (lingerHoldPlace r) := by
  obtain ⟨-, -, -, -, discharge, -⟩ := setupSound_iff.1 setup
  have fits := lingerHoldPlace_fits (r := r) setup
  unfold lingerHoldPlace at fits ⊢
  split
  · next ends => rw [if_pos ends] at fits; exact ⟨fits, fun _ => discharge, nofun⟩
  · next lingers => rw [if_neg lingers] at fits; exact ⟨fits, fun _ => Nat.pos_of_ne_zero lingers, nofun⟩

theorem startPlace_lasts (setup : setupSound r.setup = true) (run : Run) : Lasts r (startPlace r run) := by
  have fits := startPlace_fits (r := r) setup run
  unfold startPlace at fits ⊢
  split
  · next settles => rw [if_pos settles] at fits; exact ⟨fits, fun _ => Nat.pos_of_ne_zero settles, nofun⟩
  · split
    · exact .zero _ rfl
    · exact .zero _ run.state_untimed

theorem heldPlace_lasts (setup : setupSound r.setup = true) (permitted : Bool) : Lasts r (heldPlace r permitted) := by
  rcases reach_cases r.demand with demand | demand | ⟨run, demand⟩
  · unfold heldPlace; rw [demand]; exact lingerHoldPlace_lasts setup
  · unfold heldPlace; rw [demand]; exact .zero _ rfl
  · rw [heldPlace_run demand]
    split
    · exact startPlace_lasts setup run
    · exact .zero _ rfl

theorem fallPlace_lasts (setup : setupSound r.setup = true) (permitted : Bool) : Lasts r (fallPlace r permitted) := by
  unfold fallPlace
  split
  · exact .zero _ rfl
  · exact .zero _ rfl
  · exact heldPlace_lasts setup _
  · exact heldPlace_lasts setup _

theorem powerPlace_lasts (setup : setupSound r.setup = true) (permitted : Bool) : Lasts r (powerPlace r permitted) := by
  obtain ⟨ramp, bound, -⟩ := setupSound_iff.1 setup
  unfold powerPlace
  split
  · exact heldPlace_lasts setup _
  · next absent => exact ⟨⟨.inl rfl, bound⟩, fun _ => ramp, fun _ => Bool.not_eq_true _ ▸ absent⟩

theorem dischargePlace_lasts (setup : setupSound r.setup = true) : Lasts r (.discharge, r.setup.discharge) := by
  obtain ⟨-, -, -, -, discharge, bound⟩ := setupSound_iff.1 setup
  exact ⟨⟨.inl rfl, bound⟩, fun _ => discharge, nofun⟩

theorem lingerRunPlace_lasts (setup : setupSound r.setup = true) (permitted : Bool) (run : Run) :
    Lasts r (lingerRunPlace r permitted run) := by
  obtain ⟨-, -, -, linger, -⟩ := setupSound_iff.1 setup
  unfold lingerRunPlace
  split
  · exact fallPlace_lasts setup _
  · next lingers => exact ⟨⟨.inl rfl, linger⟩, fun _ => Nat.pos_of_ne_zero lingers, nofun⟩

theorem lingerPlace_lasts (setup : setupSound r.setup = true) (permitted : Bool) (l : Level) :
    Lasts r (lingerPlace r permitted l) := by
  unfold lingerPlace
  cases l with
  | hold =>
    dsimp only
    split
    · exact dischargePlace_lasts setup
    · exact heldPlace_lasts setup _
  | slow | full => exact fallPlace_lasts setup _

theorem demandPlace_lasts (runs : r.Runs False) (permitted : Bool) : Lasts r (demandPlace r permitted) := by
  obtain ⟨-, -, -, -, setup, -⟩ := ctrlSound_iff.1 runs.sound
  have stays := runs.lasts
  unfold demandPlace
  cases state : r.state with
  | off =>
    cases r.demand with
    | none => exact .zero _ rfl
    | some m => exact powerPlace_lasts setup _
  | powering | discharge | fault => rwa [state] at stays
  | held => exact heldPlace_lasts setup _
  | starting from_ =>
    rw [state] at stays
    obtain ⟨⟨-, bound⟩, ticks, -⟩ := stays
    rcases reach_cases r.demand with demand | demand | ⟨run, demand⟩
    · rw [demand]; exact heldPlace_lasts setup _
    · rw [demand]; exact heldPlace_lasts setup _
    · rw [demand]
      cases run <;> exact ⟨⟨.inl rfl, bound⟩, fun _ => ticks rfl, nofun⟩
  | slow =>
    rcases reach_cases r.demand with demand | demand | ⟨run, demand⟩
    · rw [demand]; exact lingerRunPlace_lasts setup _ _
    · rw [demand]; exact lingerRunPlace_lasts setup _ _
    · rw [demand]; cases run <;> exact .zero _ rfl
  | full =>
    rcases reach_cases r.demand with demand | demand | ⟨run, demand⟩
    · rw [demand]; exact lingerRunPlace_lasts setup _ _
    · rw [demand]; exact lingerRunPlace_lasts setup _ _
    · rw [demand]
      cases run with
      | slow => exact lingerRunPlace_lasts setup _ _
      | full => exact .zero _ rfl
  | linger l =>
    rw [state] at stays
    dsimp only
    split
    · exact stays
    · exact lingerPlace_lasts setup _ _

/-- A timed step leads to a place that lasts (R82, R85, R86, R109). -/
theorem endPlace_lasts (sound : ctrlSound r = true) (waits : r.state = .powering → r.pgood = false)
    (ends : timed r.state = true) (permitted : Bool) : Lasts r (endPlace r permitted) := by
  obtain ⟨-, -, -, -, setup, -⟩ := ctrlSound_iff.1 sound
  unfold endPlace
  cases state : r.state with
  | powering => dsimp only; rw [waits state]; exact .zero _ rfl
  | starting run =>
    dsimp only
    split
    · exact .zero _ rfl
    · exact .zero _ run.state_untimed
  | linger l => exact lingerPlace_lasts setup _ _
  | discharge =>
    dsimp only
    split
    · exact .zero _ rfl
    · exact powerPlace_lasts setup _
  | off | held | slow | full | fault => rw [state] at ends; cases ends

end Timers

end Sys2Proof.Machine

/-! ## What an event keeps of outputs, timers and CRST_N -/

namespace Sys2Proof.Machine

open Sys2Proof.Statement

section Lines

variable {s t u v w : State} {d e c p : Dom} {o : Client} {r x y : Ctrl} {m : ClientRec} {place : DomState × Nat}
  {late : Dom → Prop} {cause : FaultCause} {before : Reach}

/-! ### CRST_N of one client (R140, R141) -/

/-- CRST_N of a client over the record of its home: asserted as the home, the pulse and the tie say, the tie over a
warm home where an event waits. -/
structure ClientRec.Lined (m : ClientRec) (x : Ctrl) : Prop where
  crst : m.crst = (x.cold || decide (0 < m.pulse) || m.tied)
  tied : m.tied = true → x.cold = false ∧ x.eventWaits = true

/-- The pulse of a client in its range, and none under a tie. -/
structure ClientRec.Calm (m : ClientRec) : Prop where
  pulse : m.pulse ≤ Config.pulseTicks
  tied : m.tied = true → m.pulse = 0

theorem resetLineLaw_iff :
    ResetLineLaw s ↔ ∀ o, (s.client o).Lined (s.ctrl (homeOf o)) ∧ (s.client o).Calm := by
  refine forall_congr' fun o => ⟨fun ⟨crst, pulse, tie⟩ => ?_, fun ⟨⟨crst, tie⟩, ⟨pulse, zero⟩⟩ => ?_⟩
  · exact ⟨⟨crst, fun tied => ⟨(tie tied).1, (tie tied).2.2⟩⟩, pulse, fun tied => (tie tied).2.1⟩
  · exact ⟨crst, pulse, fun tied => ⟨(tie tied).1, zero tied, (tie tied).2⟩⟩

theorem ClientRec.Lined.told (h : m.Lined x) (told : x.Told y) : m.Lined y where
  crst := by rw [told.cold]; exact h.crst
  tied stands := ⟨told.cold.trans (h.tied stands).1, told.waits (h.tied stands).2⟩

theorem ClientRec.Lined.losing (h : m.Lined x) (n : Nat) : (m.losing n).Lined x := ⟨h.crst, h.tied⟩

theorem ClientRec.Calm.losing (h : m.Calm) (n : Nat) : (m.losing n).Calm := ⟨h.pulse, h.tied⟩

/-- The record of a client made to follow its home: no other has its home there. -/
theorem State.syncHome_own (home : homeOf o = d) (s : State) :
    (s.syncHome d).client o
      = { s.client o with
          tied := s.staysTied o
          crst := (s.ctrl d).cold || decide (0 < (s.client o).pulse) || s.staysTied o } := by
  subst home
  unfold State.syncHome
  rw [homeClient_homeOf]
  dsimp only
  rw [State.syncCrst_client, if_pos rfl]

theorem State.syncHome_away (away : homeOf o ≠ d) (s : State) : (s.syncHome d).client o = s.client o := by
  unfold State.syncHome
  cases home : homeClient d with
  | none => rfl
  | some c =>
    dsimp only
    rw [State.syncCrst_client, if_neg fun same => away ((congrArg homeOf same).trans (homeOf_of_homeClient home))]

theorem State.syncHome_lined (stands : homeOf o ≠ d → (s.client o).Lined (s.ctrl (homeOf o))) :
    ((s.syncHome d).client o).Lined ((s.syncHome d).ctrl (homeOf o)) := by
  rw [State.syncHome_ctrl]
  by_cases home : homeOf o = d
  · rw [State.syncHome_own home]
    refine ⟨by rw [home], fun tied => ?_⟩
    simp only [State.staysTied, Bool.and_eq_true, Bool.not_eq_true'] at tied
    exact ⟨tied.1.2, tied.2⟩
  · rw [State.syncHome_away home]
    exact stands home

theorem State.syncHome_calm (calm : (s.client o).Calm) : ((s.syncHome d).client o).Calm := by
  by_cases home : homeOf o = d
  · rw [State.syncHome_own home]
    refine ⟨calm.pulse, fun tied => calm.tied ?_⟩
    simp only [State.staysTied, Bool.and_eq_true] at tied
    exact tied.1.1
  · rw [State.syncHome_away home]
    exact calm

theorem State.handNeighbours_lined (stands : homeOf o ≠ d → (s.client o).Lined (s.ctrl (homeOf o))) :
    ((s.handNeighbours d before).client o).Lined ((s.handNeighbours d before).ctrl (homeOf o)) := by
  rw [State.handNeighbours_eq]
  refine State.syncHome_lined fun away => ?_
  rw [(State.handTree_control before).1.client]
  exact (stands away).told (s.handTree_told d before _)

theorem State.handNeighbours_calm (calm : (s.client o).Calm) : ((s.handNeighbours d before).client o).Calm := by
  rw [State.handNeighbours_eq]
  exact State.syncHome_calm (by rw [(State.handTree_control before).1.client]; exact calm)

/-! ### What an event in its passages keeps -/

/-- What the passages of an event of domain `d` keep: controllers that run as they should, and CRST_N of every client
whose home is another domain. -/
structure Passing (d : Dom) (late : Dom → Prop) (s : State) : Prop where
  runs : ∀ e, (s.ctrl e).Runs (late e)
  lined : ∀ o, homeOf o ≠ d → (s.client o).Lined (s.ctrl (homeOf o))
  calm : ∀ o, (s.client o).Calm

theorem Ctrl.Runs.mono {late late' : Prop} (h : r.Runs late) (weaker : late → late') : r.Runs late' :=
  ⟨h.sound, h.ramp, fun now => h.ticks fun before => now (weaker before)⟩

/-- Passages of `d` that leave a record which runs, and of the clients move home-lost events alone. -/
theorem Passing.of_replaced (runs : ∀ e, e ≠ d → (s.ctrl e).Runs (late e))
    (lined : ∀ o, homeOf o ≠ d → (s.client o).Lined (s.ctrl (homeOf o))) (calm : ∀ o, (s.client o).Calm)
    (ctrl : ∀ e, w.ctrl e = replaced s.ctrl d x e) (client : ∀ o, ∃ n, w.client o = (s.client o).losing n)
    (own : x.Runs (late d)) : Passing d late w := by
  have other (e : Dom) (other : e ≠ d) : w.ctrl e = s.ctrl e := by rw [ctrl, replaced, if_neg other]
  refine ⟨fun e => ?_, fun o away => ?_, fun o => ?_⟩
  · rw [ctrl, replaced]
    split
    · next here => rw [here]; exact own
    · next other => exact runs e other
  · obtain ⟨n, client⟩ := client o
    rw [client, other _ away]
    exact (lined o away).losing n
  · obtain ⟨n, client⟩ := client o
    rw [client]
    exact (calm o).losing n

theorem OnlyNotices.passing (notices : OnlyNotices s t) (h : Passing d late s) : Passing d late t := by
  refine ⟨fun e => ?_, fun o away => ?_, fun o => ?_⟩
  · rw [notices.ctrl]; exact h.runs e
  · rw [notices.client, notices.ctrl]; exact h.lined o away
  · rw [notices.client]; exact h.calm o

/-! ### The forced stop (R104, R105) -/

/-- What one stop after another keeps, the stops below a domain keep. -/
theorem State.stopChildren_keeps {P : State → Prop}
    (keeps : ∀ t p c, P t → (t.ctrl c).setup.parent = some p → isStarted (t.ctrl c).state = true → t.permits c = false →
      P (t.stopOne c)) (n : Nat) (p : Dom) (s : State) (start : P s) : P (s.stopChildren n p) := by
  induction n generalizing p s with
  | zero => exact start
  | succ n ih =>
    rw [State.stopChildren_succ]
    generalize List.finRange 8 = cs
    induction cs generalizing s with
    | nil => exact start
    | cons c cs ihcs =>
      refine ihcs _ ?_
      unfold State.stopChild
      split
      · next cut => exact ih c _ (keeps s p c start cut.1 cut.2.1 cut.2.2)
      · exact start

theorem stoppedPlace_lasts (setup : setupSound r.setup = true) : Lasts r (stoppedPlace r) := by
  have lingers := lingerHoldPlace_lasts (r := r) setup
  unfold stoppedPlace
  split
  · exact lingers
  · exact .zero _ rfl

theorem State.stops_halted (sound : ctrlSound (s.ctrl c) = true) (started : isStarted (s.ctrl c).state = true) :
    Halted s (s.halted c) c (s.ctrl c) := by
  obtain ⟨pins, cold, -⟩ := ctrlSound_iff.1 sound
  exact State.halted_halts rfl started pins cold

/-- One stop keeps what the passages of another domain keep. -/
theorem Passing.stopOne (h : Passing d late s) (started : isStarted (s.ctrl c).state = true) :
    Passing d late (s.stopOne c) := by
  have halted := State.stops_halted (h.runs c).sound started
  obtain ⟨-, -, -, -, setup, -⟩ := ctrlSound_iff.1 (h.runs c).sound
  rw [State.stopOne_eq]
  refine ⟨fun e => Ctrl.Runs.told ?_ (State.handNeighbours_told ..),
    fun o away => State.handNeighbours_lined fun other => ?_,
    fun o => State.handNeighbours_calm ?_⟩
  · rw [halted.ctrl, replaced]
    split
    · next here => rw [here]; exact (stoppedPlace_lasts setup).placed (h.runs c).sound _
    · exact h.runs e
  · rw [halted.client, halted.ctrl, replaced, if_neg other]
    exact h.lined o away
  · rw [halted.client]
    exact h.calm o

theorem Passing.stopChildren (h : Passing d late s) (n : Nat) (p : Dom) : Passing d late (s.stopChildren n p) :=
  State.stopChildren_keeps (P := Passing d late) (fun _ _ _ h _ started _ => h.stopOne started) n p s h

/-! ### A whole event (R76) -/

theorem faultRecord_runs (sound : ctrlSound r = true) (late : Prop) : (faultRecord r cause).Runs late :=
  ⟨ctrlSound_faultRecord sound, nofun, nofun⟩

theorem Comes.passing (h : Comes d (s.ctrl d) place s t) (sound : ctrlSound (s.ctrl d) = true)
    (lasts : Lasts (s.ctrl d) place) (runs : ∀ e, e ≠ d → (s.ctrl e).Runs (late e))
    (lined : ∀ o, homeOf o ≠ d → (s.client o).Lined (s.ctrl (homeOf o))) (calm : ∀ o, (s.client o).Calm) :
    Passing d late t := by
  rcases h with ⟨cause, fails⟩ | lands
  · obtain ⟨v, down, rfl⟩ := fails.downed
    have passing : Passing d late v :=
      .of_replaced runs lined calm down.ctrl (fun o => ⟨0, down.client o⟩) (faultRecord_runs sound _)
    have stopped := passing.stopChildren 8 d
    refine .of_replaced (fun e _ => stopped.runs e) stopped.lined stopped.calm (x := (v.stopChildren 8 d).ctrl d)
      (fun e => ?_) (fun o => ⟨_, State.raiseHomeLost_client ..⟩) (stopped.runs d)
    rw [State.raiseHomeLost_ctrl, replaced]
    split
    · next here => rw [here]
    · rfl
  · exact .of_replaced runs lined calm lands.ctrl lands.client (lasts.placed sound _)

/-- After an event all controllers run as they should, and CRST_N of every client follows its home. -/
theorem State.event_runs {passage : State → State} (comes : Comes d (s.ctrl d) place s (passage s))
    (sound : ctrlSound (s.ctrl d) = true)
    (lasts : Lasts (s.ctrl d) place) (runs : ∀ e, e ≠ d → (s.ctrl e).Runs (late e))
    (lined : ∀ o, homeOf o ≠ d → (s.client o).Lined (s.ctrl (homeOf o))) (calm : ∀ o, (s.client o).Calm) :
    (∀ e, ((s.event d passage).ctrl e).Runs (e ≠ d ∧ late e)) ∧ ResetLineLaw (s.event d passage) := by
  have passed : Passing d (fun e => e ≠ d ∧ late e) (passage s) :=
    comes.passing sound lasts (fun e other => (runs e other).mono fun before => ⟨other, before⟩) lined calm
  have granted : Passing d (fun e => e ≠ d ∧ late e) ((passage s).grant d (effLevel (s.ctrl d).state)) := by
    unfold State.grant
    split
    · exact passed
    · exact (State.tellGranted_notices ..).passing passed
  rw [State.event_eq]
  refine ⟨fun e => (granted.runs e).told (State.handNeighbours_told ..), resetLineLaw_iff.2 fun o => ⟨?_, ?_⟩⟩
  · exact State.handNeighbours_lined (granted.lined o)
  · exact State.handNeighbours_calm (granted.calm o)

end Lines

end Sys2Proof.Machine

/-! ## What a step does to the controllers and to CRST_N -/

namespace Sys2Proof.Machine

open Sys2Proof.Statement

section Still

variable {s t u v : State} {d e : Dom} {c o : Client} {m n : ClientRec} {p : Client} {k : ReqKind}

/-! ### What leaves the controllers alone -/

/-- A client's CRST_N, pulse and tie stand, or a restart has begun (R140, R147). -/
def ClientRec.Restarts (m n : ClientRec) : Prop :=
  (n.crst = m.crst ∧ n.pulse = m.pulse ∧ n.tied = m.tied)
    ∨ (n.crst = true ∧ n.pulse = Config.pulseTicks ∧ n.tied = false)

theorem ClientRec.Restarts.refl (m : ClientRec) : m.Restarts m := .inl ⟨rfl, rfl, rfl⟩

theorem ClientRec.Restarts.trans {l : ClientRec} (h : l.Restarts m) (k : m.Restarts n) : l.Restarts n := by
  rcases k with ⟨crst, pulse, tied⟩ | restarted
  · unfold ClientRec.Restarts
    rw [crst, pulse, tied]
    exact h
  · exact .inr restarted

/-- Every controller stands, and CRST_N of a client moves by its restart alone. -/
structure Still (s t : State) : Prop where
  ctrls : t.ctrls = s.ctrls
  client : ∀ o, (s.client o).Restarts (t.client o)

theorem Still.of_eq (ctrls : t.ctrls = s.ctrls) (clients : t.clients = s.clients) : Still s t :=
  ⟨ctrls, fun o => by unfold State.client; rw [clients]; exact .refl _⟩

theorem Still.refl (s : State) : Still s s := .of_eq rfl rfl

theorem Still.trans (h : Still s t) (k : Still t u) : Still s u :=
  ⟨k.ctrls.trans h.ctrls, fun o => (h.client o).trans (k.client o)⟩

theorem OnlyNotices.still (h : OnlyNotices s t) : Still s t := by
  unfold OnlyNotices at h; rw [h]; exact .of_eq rfl rfl
theorem OnlyTable.still (h : OnlyTable s t) : Still s t := by
  unfold OnlyTable at h; rw [h]; exact .of_eq rfl rfl
theorem OnlyPorts.still (h : OnlyPorts s t) : Still s t := by
  unfold OnlyPorts at h; rw [h]; exact .of_eq rfl rfl

theorem State.create_still (i : SlotNo) (w : Owner) (a : Template) (b : Option WatchId) (s : State) :
    Still s (s.create i w a b) := by
  rw [State.create_frame]; exact .of_eq rfl rfl

theorem State.dropAdoption_still (s : State) : Still s s.dropAdoption := by
  unfold State.dropAdoption; split <;> exact .of_eq rfl rfl

theorem State.dropWatch_still (w : WatchId) (x : Watch) (s : State) : Still s (s.dropWatch w x) := by
  unfold State.dropWatch
  dsimp only
  split
  · exact .of_eq rfl rfl
  · split <;> exact .of_eq rfl rfl

theorem State.setClient_still (c : Client) (s : State) (restarts : (s.client c).Restarts n) :
    Still s (s.setClient c n) := by
  refine ⟨rfl, fun o => ?_⟩
  rw [State.setClient_client]
  split
  · next same => rw [same]; exact restarts
  · exact .refl _

theorem State.addCause_still (c : Client) (f : CauseFlags → CauseFlags) (s : State) : Still s (s.addCause c f) :=
  State.setClient_still c s (.inl ⟨rfl, rfl, rfl⟩)

theorem State.clearPort_still (c : Client) (s : State) : Still s (s.clearPort c) := .of_eq rfl rfl

theorem State.clearQueue_still (c : Client) (s : State) : Still s (s.clearQueue c) := (State.putQueue_frame ..).still

theorem State.endOffersTo_still (c : Client) (s : State) : Still s (s.endOffersTo c) :=
  foldl_keeps _ Still.refl Still.trans _
    (fun t (x : SlotNo × Lease) => Still.trans (t := t.putLease x.1 _) (.of_eq rfl rfl)
      (State.notifyOwner_frame ..).still) _ _

theorem State.restart_still (c : Client) (f : CauseFlags → CauseFlags) (s : State) : Still s (s.restart c f) := by
  have before : Still s ((((s.stripped c f).endOffersTo c).clearPort c).clearQueue c) :=
    ((((s.addCause_still c f).trans (s.stripped_table c f).still).trans (State.endOffersTo_still ..)).trans
      (State.clearPort_still ..)).trans (State.clearQueue_still ..)
  rw [State.restart_eq]
  unfold State.cutOff
  dsimp only
  generalize (((s.stripped c f).endOffersTo c).clearPort c).clearQueue c = v at before ⊢
  refine ⟨?_, fun o => ?_⟩
  · rw [← before.ctrls]
    unfold State.driveCrst
    split <;> rfl
  · rw [State.driveCrst_client]
    split
    · rw [State.setClient_client_self]; exact .inr ⟨rfl, rfl, rfl⟩
    · next other => rw [State.setClient_client_ne _ _ _ other]; exact before.client o

theorem State.tearDown_still (c : Client) (s : State) : Still s (s.tearDown c) := by
  have counted : Still s (s.setClient c { s.client c with homeLostPending := (s.client c).homeLostPending - 1 }) :=
    State.setClient_still c s (.inl ⟨rfl, rfl, rfl⟩)
  exact (((counted.trans (State.addCause_still ..)).trans (State.clearPort_still ..)).trans
    (State.clearQueue_still ..)).trans (State.endOffersTo_still ..)

/-! ### Claims of the engine -/

theorem State.takeTerm_still (h : Handle) (s : State) : Still s (s.takeTerm h) := by
  have dropped : Still s { s with termClaims := s.termClaims.erase h } := .of_eq rfl rfl
  refine dropped.trans ?_
  unfold State.takeTerm
  dsimp only
  split
  · exact .refl _
  · next l _ =>
    split
    · unfold State.lapse State.lapseRelease State.lapseRestart
      cases l.lapse with
      | release => exact (State.retire_frame ..).still.trans (State.notifyOwner_frame ..).still
      | restart =>
        cases l.owner with
        | client c => exact (State.retire_frame ..).still.trans (State.restart_still ..)
        | boot => exact (State.retire_frame ..).still
    · exact .of_eq rfl rfl

theorem State.takeWindow_still (h : Handle) (s : State) : Still s (s.takeWindow h) := by
  unfold State.takeWindow
  dsimp only
  split
  · exact .of_eq rfl rfl
  · split
    · split
      · exact Still.trans (t := State.putLease _ _ { s with windowClaims := _ }) (.of_eq rfl rfl)
          (State.notifyOwner_frame ..).still
      · exact .of_eq rfl rfl
    · exact .of_eq rfl rfl

theorem State.takeAdoption_still (s : State) : Still s s.takeAdoption := by
  have lapses := foldl_keeps Still .refl .trans State.lapseBoot
    (fun t x => (t.retire_frame x.1).still.trans (t.retire x.1 |>.notify_frame ..).still)
  have unmarked : Still s { s with adoptionMark := false } := .of_eq rfl rfl
  refine unmarked.trans ?_
  unfold State.takeAdoption
  dsimp only
  split
  · exact (lapses _ _).trans (.of_eq rfl rfl)
  · exact .refl _

theorem State.fire_still (w : WatchId) (s : State) : Still s (s.fire w) := by
  unfold State.fire
  split
  · exact .refl s
  · next x _ =>
    split
    · exact .of_eq rfl rfl
    · have spent (y : Option Watch) :
          Still s ((s.create x.slot (.client x.owner) x.template (some w)).setWatch w y) :=
        (s.create_still x.slot (.client x.owner) x.template (some w)).trans (.of_eq rfl rfl)
      exact (spent _).trans (State.notify_frame ..).still

/-! ### The steps -/

/-- What an event makes of the controllers and of CRST_N, before what it hands over and the judgement of Rest Control.
-/
inductive Steers (s : State) : State → Prop
  | still {u : State} (still : Still s u) : Steers s u
  | setup {d : Dom} {x : Setup} (sound : setupSound x = true) (off : (s.ctrl d).state = .off) :
    Steers s (s.putSetup d x)
  | divide {d : Dom} {k : Nat} (range : 1 ≤ k ∧ k ≤ 8) : Steers s (s.divide d k)
  | clear {d : Dom} (faulted : (s.ctrl d).state = .fault) : Steers s (s.event d (State.toDischarge d))
  | demand {d : Dom} :
      Steers s ((s.modCtrl d (fun r => { r with demandPending := false })).event d (State.demandStep d))
  | parent {d : Dom} :
      Steers s ((s.modCtrl d (fun r => { r with parentPending := false })).event d (State.parentStep d))
  | input {d : Dom} {high : Bool} (low : s.resetLow = true) : Steers s (s.setPgood d high)
  | present {d : Dom} (unlost : (s.ctrl d).lossPending = false) :
      Steers s ((s.setPgood d true).event d (State.pgoodStep d))
  | fall {d : Dom} : Steers s ((s.setPgood d false).setLoss d true)
  | loss {d : Dom} : Steers s (((s.setPgood d false).setLoss d false).event d (State.lossStep d))
  | tick {order : List Dom} (all : ∀ d, d ∈ order) : Steers s (s.wholeTick order)

/-- What a command makes of the controllers and of CRST_N: nothing, an event, a take that ends with the lease demands
handed over, or a step of RESET_N. -/
inductive Steered (s : State) : State → Prop
  | idle : Steered s s
  | event {u : State} (steers : Steers s.begin u) : Steered s u.judgeRest
  | taken {u v : State} (steers : Steers s.begin u) (ctrls : v.ctrls = u.ctrls) (clients : v.clients = u.clients) :
      Steered s v.handOn.judgeRest
  | reset : Steered s s.begin.dropAll.blank.judgeRest
  | start {plan1 plan0 : Bool} (low : s.resetLow = true) :
    Steered s (State.start (planOf plan1 plan0) s.begin).judgeRest

theorem Granted.steers (h : Granted s p k t) (setup : k ≠ .domainSetup) (divide : k ≠ .domainDivide) : Steers s t := by
  cases h with
  | leaseTake => exact .still (State.create_still ..)
  | leaseRenew | leaseAlter | leaseWithdraw | watchSet | superPass => exact .still (.of_eq rfl rfl)
  | clientClearCause | clientQuota => exact .still (State.setClient_still _ _ (.inl ⟨rfl, rfl, rfl⟩))
  | leaseRelease => exact .still (State.retire_frame ..).still
  | leaseRevoke =>
    exact .still (((State.retire_frame ..).still.trans (State.dropAdoption_still _)).trans
      (State.notifyOwner_frame ..).still)
  | leaseOffer =>
    exact .still (Still.trans (t := s.putLease _ _) (.of_eq rfl rfl) (State.notify_frame ..).still)
  | leaseAccept =>
    exact .still (Still.trans (t := s.putLease _ _) (.of_eq rfl rfl) (State.notifyOwner_frame ..).still)
  | leaseAdopt => exact .still (Still.trans (t := s.putLease _ _) (.of_eq rfl rfl) (State.dropAdoption_still _))
  | watchDrop => exact .still (State.dropWatch_still ..)
  | domainSetup => exact absurd rfl setup
  | domainDivide => exact absurd rfl divide
  | domainClear _ faulted => exact .clear faulted
  | clientRestart => exact .still (State.restart_still ..)
  | noticeFetch => exact .still (State.putQueue_frame ..).still
  | read => exact .still (.refl s)

theorem positive_range {b : Byte} {n : Nat} (h : positive b = some n) : 1 ≤ n ∧ n ≤ 255 := by
  unfold positive at h
  split at h
  · cases h
  · obtain rfl := Option.some.inj h
    exact ⟨by omega, Nat.le_of_lt_succ b.isLt⟩

theorem setupArgs_sound {body : List Byte} {d : Dom} {x : Setup} (h : setupArgs body = some (d, x)) :
    setupSound x = true := by
  have byte (b : Byte) : b.toNat ≤ 255 := Nat.le_of_lt_succ b.isLt
  unfold setupArgs at h
  split at h
  · simp only [Option.bind_eq_bind, Option.bind_eq_some_iff, Option.some.injEq, Prod.mk.injEq] at h
    obtain ⟨_, -, _, -, _, -, ramp, rises, discharge, falls, _, -, -, rfl⟩ := h
    exact setupSound_iff.2 ⟨(positive_range rises).1, (positive_range rises).2, byte _, byte _, positive_range falls⟩
  · cases h

theorem divideArgs_range {body : List Byte} {d : Dom} {k : Nat} (h : divideArgs body = some (d, k)) :
    1 ≤ k ∧ k ≤ 8 := by
  unfold divideArgs at h
  split at h
  · simp only [Option.bind_eq_bind, Option.bind_eq_some_iff] at h
    obtain ⟨_, -, h⟩ := h
    split at h
    · next range =>
      simp only [Option.some.injEq, Prod.mk.injEq] at h
      exact h.2 ▸ range
    · cases h
  · cases h

theorem domainSetupRule_steers (body : List Byte) : Steers s (domainSetupRule p body s).state := by
  unfold domainSetupRule withForm
  cases args : setupArgs body with
  | none => exact .still (.refl s)
  | some a =>
    obtain ⟨d, x⟩ := a
    unfold withRole
    dsimp only
    split
    · split
      · next idle =>
        split
        · exact .still (.refl s)
        · exact .setup (setupArgs_sound args) idle.1
      · exact .still (.refl s)
    · exact .still (.refl s)

theorem domainDivideRule_steers (body : List Byte) : Steers s (domainDivideRule p body s).state := by
  unfold domainDivideRule withForm
  cases args : divideArgs body with
  | none => exact .still (.refl s)
  | some a =>
    obtain ⟨d, k⟩ := a
    unfold withRole
    dsimp only
    split
    · exact .divide (divideArgs_range args)
    · exact .still (.refl s)

/-- What the rule of a request makes of the controllers. -/
theorem ruleOf_steers (s : State) (p : Client) (r : Request) : Steers s (ruleOf r.kind p r.body s).state := by
  by_cases setup : r.kind = .domainSetup
  · rw [setup]; exact domainSetupRule_steers _
  by_cases divide : r.kind = .domainDivide
  · rw [divide]; exact domainDivideRule_steers _
  rcases ruleOf_cases s p r with ⟨status, refused⟩ | granted
  · rw [refused]
    refine .still ?_
    change Still s (afterRefusal s p status)
    unfold afterRefusal
    split
    · exact (State.putQueue_frame ..).still
    · exact .refl s
  · exact granted.steers setup divide

theorem occur_steered {can : Bool} {event : State → State} (h : can = true → Steered s (event s.begin).judgeRest)
    (e : s.occur can event = .next t) : Steered s t := by
  unfold State.occur at e
  split at e
  · next able => cases e; exact h able
  · cases e; exact .idle

theorem still_steered {can : Bool} {event : State → State} (still : Still s.begin (event s.begin))
    (e : s.occur can event = .next t) : Steered s t := occur_steered (fun _ => .event (.still still)) e

theorem claim_steered {can : Bool} {take : State → State} (h : Still s.begin (take s.begin))
    (e : s.claim can take = .next t) : Steered s t :=
  occur_steered (event := fun u => (take u).handOn) (fun _ => .taken (.still h) rfl rfl) e

theorem take_steered (k : ReqKind) (e : exec (commandOf k) s = .next t) : Steered s t := by
  rw [exec_commandOf] at e
  unfold State.take at e
  split at e
  · next p r _ =>
    refine occur_steered (fun able => ?_) e
    obtain rfl : r.kind = k := of_decide_eq_true (Bool.and_eq_true_iff.1 able).2
    exact .taken (ruleOf_steers s.begin p r) rfl rfl
  · cases e; exact .idle

theorem tick_steered {can : Bool} (e : s.occur can State.tick = .next t) : Steered s t :=
  occur_steered (fun _ => .event (.tick List.mem_finRange)) e

theorem tickFrom_steered {can : Bool} (e : s.occur can (State.tickFrom d) = .next t) : Steered s t := by
  refine occur_steered (fun _ => .event (.tick fun e => ?_)) e
  by_cases here : e = d
  · exact here ▸ List.mem_cons_self
  · exact List.mem_cons_of_mem _ ((List.mem_erase_of_ne here).2 (List.mem_finRange e))

theorem execLineSample_steered (e : execLineSample s = .next t) : Steered s t := by
  unfold execLineSample at e
  exact still_steered (.of_eq rfl rfl) e

theorem execWakingEnd_steered (e : execWakingEnd s = .next t) : Steered s t := by
  unfold execWakingEnd at e
  exact still_steered (.of_eq rfl rfl) e

theorem execWakeLineChange_steered {l : Line} {high : Bool} (e : execWakeLineChange l high s = .next t) :
    Steered s t := by
  unfold execWakeLineChange at e
  exact still_steered (.of_eq rfl rfl) e

theorem execHomeLostTeardown_steered (e : execHomeLostTeardown c s = .next t) : Steered s t := by
  unfold execHomeLostTeardown at e
  exact still_steered (State.tearDown_still c _) e

theorem execDemandChange_steered (e : execDemandChange d s = .next t) : Steered s t := by
  unfold execDemandChange at e
  exact occur_steered (fun _ => .event .demand) e

theorem execParentChange_steered (e : execParentChange d s = .next t) : Steered s t := by
  unfold execParentChange at e
  exact occur_steered (fun _ => .event .parent) e

theorem execPgoodPresent_steered (e : execPgoodPresent d s = .next t) : Steered s t := by
  unfold execPgoodPresent at e
  refine occur_steered (fun able => .event ?_) e
  dsimp only
  split
  · next low => exact .input low
  · exact .present (by simpa using (Bool.and_eq_true_iff.1 able).2)

theorem execPgoodLoss_steered {fall : PgoodFall} (e : execPgoodLoss fall s = .next t) : Steered s t := by
  unfold execPgoodLoss at e
  refine occur_steered (fun able => .event ?_) e
  dsimp only
  split
  · next low => exact .input low
  · split
    · exact .fall
    · exact .loss

theorem execSend_steered {cut : Bool} {bytes : List Byte} (e : execSend o cut bytes s = .next t) : Steered s t := by
  unfold execSend at e
  refine still_steered ?_ e
  dsimp only
  split
  · exact ((State.driveMiso_frame ..).trans (State.receive_frame ..)).still
  · exact (State.driveMiso_frame ..).still

theorem execCollect_steered {cut : Option Nat} {n : Nat} (e : execCollect o cut n s = .next t) : Steered s t := by
  unfold execCollect at e
  refine still_steered ?_ e
  dsimp only
  split
  · exact (State.driveMiso_frame ..).still
  · exact ((State.driveMiso_frame ..).trans (State.afterCollect_frame ..)).still

theorem execIgnoredTransaction_steered {cut : Bool} {bytes : List Byte}
    (e : execIgnoredTransaction o cut bytes s = .next t) : Steered s t := by
  unfold execIgnoredTransaction at e
  refine still_steered ?_ e
  dsimp only
  split
  · exact ((State.driveMiso_frame ..).trans (State.setPort_frame ..)).still
  · exact (State.driveMiso_frame ..).still

theorem execResetAssert_steered (e : execResetAssert s = .next t) : Steered s t := by
  unfold execResetAssert at e
  refine occur_steered (fun _ => ?_) e
  exact .reset

theorem execPartStart_steered {plan1 plan0 : Bool} (e : execPartStart plan1 plan0 s = .next t) : Steered s t := by
  unfold execPartStart at e
  exact occur_steered (fun low => .start low) e

/-- Every command does one of the things of `Steered`. -/
theorem exec_steered (i : Instr) (e : exec i s = .next t) : Steered s t := by
  cases i with
  | leaseTake => exact take_steered .leaseTake e
  | leaseRenew => exact take_steered .leaseRenew e
  | leaseAlter => exact take_steered .leaseAlter e
  | leaseRelease => exact take_steered .leaseRelease e
  | leaseRead => exact take_steered .leaseRead e
  | leaseList => exact take_steered .leaseList e
  | leaseRevoke => exact take_steered .leaseRevoke e
  | leaseOffer => exact take_steered .leaseOffer e
  | leaseWithdraw => exact take_steered .leaseWithdraw e
  | leaseAccept => exact take_steered .leaseAccept e
  | leaseAdopt => exact take_steered .leaseAdopt e
  | watchSet => exact take_steered .watchSet e
  | watchDrop => exact take_steered .watchDrop e
  | watchRead => exact take_steered .watchRead e
  | linesRead => exact take_steered .linesRead e
  | domainRead => exact take_steered .domainRead e
  | domainSetup => exact take_steered .domainSetup e
  | domainDivide => exact take_steered .domainDivide e
  | domainClear => exact take_steered .domainClear e
  | clientStatus => exact take_steered .clientStatus e
  | clientClearCause => exact take_steered .clientClearCause e
  | clientQuota => exact take_steered .clientQuota e
  | clientRestart => exact take_steered .clientRestart e
  | superPass => exact take_steered .superPass e
  | noticeFetch => exact take_steered .noticeFetch e
  | partIdent => exact take_steered .partIdent e
  | tick | remainingReachesZero | offerWindowRunsOut | adoptionWindowRunsOut | restartPulseEnd | restDelayEnd =>
    exact tick_steered e
  | rampEnd d | settleEnd d | lingerEnd d | dischargeEnd d => exact tickFrom_steered e
  | leaseTermExpiry h => exact claim_steered (State.takeTerm_still h _) e
  | offerWindowExpiry h => exact claim_steered (State.takeWindow_still h _) e
  | adoptionWindowExpiry => exact claim_steered (State.takeAdoption_still _) e
  | firing w => exact claim_steered (State.fire_still w _) e
  | lineSample => exact execLineSample_steered e
  | wakeLineChange => exact execWakeLineChange_steered e
  | wakingEnd => exact execWakingEnd_steered e
  | demandChange => exact execDemandChange_steered e
  | parentChange => exact execParentChange_steered e
  | pgoodPresent => exact execPgoodPresent_steered e
  | pgoodLoss => exact execPgoodLoss_steered e
  | homeLostTeardown => exact execHomeLostTeardown_steered e
  | send => exact execSend_steered e
  | collect => exact execCollect_steered e
  | ignoredTransaction => exact execIgnoredTransaction_steered e
  | resetAssert => exact execResetAssert_steered e
  | partStart => exact execPartStart_steered e

end Still

end Sys2Proof.Machine

/-! ## Outputs, timers and CRST_N through every step -/

namespace Sys2Proof.Machine

open Sys2Proof.Statement

section Lively

variable {s t u v : State} {d e : Dom} {c o : Client} {r x : Ctrl} {m n : ClientRec} {place : DomState × Nat}
  {late : Dom → Prop}

/-- Every controller is sound and runs as it should, and CRST_N of every client follows its home (R77, R79, R87, R89,
R140, R141). -/
structure Lively (s : State) : Prop where
  runs : ∀ e, (s.ctrl e).Runs False
  reset : ResetLineLaw s

theorem lively_iff : Lively s ↔ OutputLaw s ∧ EndLaw s ∧ ResetLineLaw s :=
  ⟨fun ⟨runs, reset⟩ => ⟨fun e => (runs e).sound, fun e => ⟨(runs e).ticks id, (runs e).ramp⟩, reset⟩,
    fun ⟨output, ends, reset⟩ => ⟨fun e => ⟨output e, (ends e).2, fun _ => (ends e).1⟩, reset⟩⟩

/-- The laws rest on the controllers and the client records alone. -/
theorem Lively.congr (law : Lively s) (ctrls : t.ctrls = s.ctrls) (clients : t.clients = s.clients) : Lively t := by
  obtain ⟨runs, reset⟩ := law
  have ctrl (e : Dom) : t.ctrl e = s.ctrl e := by unfold State.ctrl; rw [ctrls]
  have client (o : Client) : t.client o = s.client o := by unfold State.client; rw [clients]
  refine ⟨fun e => ctrl e ▸ runs e, fun o => ?_⟩
  rw [client, ctrl]
  exact reset o

theorem Lively.judged (law : Lively s) : Lively s.judgeRest :=
  law.congr (by rw [State.judgeRest_frame]) (by rw [State.judgeRest_frame])

/-! ### Events that are none of a controller -/

theorem ClientRec.Restarts.lined (h : m.Restarts n) (lined : m.Lined x) : n.Lined x := by
  rcases h with ⟨crst, pulse, tied⟩ | ⟨crst, pulse, tied⟩
  · exact ⟨by rw [crst, pulse, tied]; exact lined.crst, by rw [tied]; exact lined.tied⟩
  · refine ⟨?_, by rw [tied]; exact nofun⟩
    rw [crst, pulse]
    simp [Config.pulseTicks]

theorem ClientRec.Restarts.calm (h : m.Restarts n) (calm : m.Calm) : n.Calm := by
  rcases h with ⟨crst, pulse, tied⟩ | ⟨crst, pulse, tied⟩
  · exact ⟨by rw [pulse]; exact calm.pulse, by rw [tied, pulse]; exact calm.tied⟩
  · exact ⟨pulse.le, by rw [tied]; exact nofun⟩

theorem Lively.still (law : Lively s) (still : Still s u) : Lively u := by
  have ctrl (e : Dom) : u.ctrl e = s.ctrl e := by unfold State.ctrl; rw [still.ctrls]
  refine ⟨fun e => ctrl e ▸ law.runs e, resetLineLaw_iff.2 fun o => ?_⟩
  obtain ⟨lined, calm⟩ := resetLineLaw_iff.1 law.reset o
  rw [ctrl]
  exact ⟨(still.client o).lined lined, (still.client o).calm calm⟩

/-- What is handed to controllers moves neither their outputs nor CRST_N. -/
theorem Lively.told (law : Lively s) (told : ∀ e, (s.ctrl e).Told (u.ctrl e)) (client : ∀ o, u.client o = s.client o) :
    Lively u := by
  refine ⟨fun e => (law.runs e).told (told e), resetLineLaw_iff.2 fun o => ?_⟩
  obtain ⟨lined, calm⟩ := resetLineLaw_iff.1 law.reset o
  rw [client]
  exact ⟨lined.told (told _), calm⟩

theorem Ctrl.leaseHanded_told (r : Ctrl) (lease : Reach) : r.Told (r.leaseHanded lease) := by
  unfold Ctrl.leaseHanded
  split
  · exact .refl r
  · obtain ⟨-, pends, called, moved⟩ := Ctrl.hand_told r lease r.derivedDemand
    exact ⟨rfl, pends, called, moved⟩

theorem State.handOn_told (s : State) (e : Dom) : (s.ctrl e).Told (s.handOn.ctrl e) := by
  rw [State.handOn_ctrl]
  split
  · exact (Ctrl.leaseHanded_told ..).trans (Ctrl.hand_told ..)
  · exact Ctrl.leaseHanded_told ..

theorem Lively.handOn (law : Lively s) : Lively s.handOn :=
  law.told s.handOn_told fun _ => by rw [State.handOn_frame]; rfl

/-! ### The records that requests and inputs write (R93, R94, R112, R162) -/

/-- One record written, its cold flag as it was and no event that waited gone. -/
theorem Lively.written (law : Lively s) (other : ∀ e, e ≠ d → u.ctrl e = s.ctrl e)
    (client : ∀ o, u.client o = s.client o)
    (runs : (u.ctrl d).Runs False) (cold : (u.ctrl d).cold = (s.ctrl d).cold)
    (waits : (s.ctrl d).eventWaits = true → (u.ctrl d).eventWaits = true) : Lively u := by
  refine ⟨fun e => ?_, resetLineLaw_iff.2 fun o => ?_⟩
  · by_cases here : e = d
    · exact here ▸ runs
    · rw [other e here]; exact law.runs e
  · obtain ⟨lined, calm⟩ := resetLineLaw_iff.1 law.reset o
    rw [client]
    refine ⟨?_, calm⟩
    by_cases home : homeOf o = d
    · rw [home] at lined ⊢
      exact ⟨by rw [cold]; exact lined.crst, fun tied => ⟨cold.trans (lined.tied tied).1, waits (lined.tied tied).2⟩⟩
    · rw [other _ home]; exact lined

theorem State.putSetup_written (d : Dom) (x : Setup) (s : State) :
    s.putSetup d x = s.modCtrl d (fun r => { r with setup := x, counts := false })
      ∨ ∃ p, s.putSetup d x = (s.modCtrl d (fun r => { r with setup := x, counts := false })).recompute p := by
  unfold State.putSetup
  dsimp only
  split
  · exact .inr ⟨_, rfl⟩
  · exact .inl rfl

theorem State.recompute_told (p : Dom) (s : State) (e : Dom) : (s.ctrl e).Told ((s.recompute p).ctrl e) := by
  unfold State.recompute
  rw [State.modCtrl_ctrl]
  split
  · next here => rw [here]; exact Ctrl.hand_told ..
  · exact .refl _

theorem Ctrl.Runs.off (sound : ctrlSound r = true) (off : r.state = .off) {late : Prop} : r.Runs late :=
  ⟨sound, by rw [off]; exact nofun, by rw [off]; exact nofun⟩

theorem Lively.setup {x : Setup} (law : Lively s) (sound : setupSound x = true) (off : (s.ctrl d).state = .off) :
    Lively (s.putSetup d x) := by
  have put : Lively (s.modCtrl d (fun r => { r with setup := x, counts := false })) := by
    have here : (s.modCtrl d (fun r => { r with setup := x, counts := false })).ctrl d
        = { s.ctrl d with setup := x, counts := false } := by rw [State.modCtrl_ctrl, if_pos rfl]
    refine law.written (d := d) (fun e other => by rw [State.modCtrl_ctrl, if_neg other]) (fun _ => rfl) ?_ ?_ ?_
    · obtain ⟨pins, cold, timer, bound, -, divisor, loss⟩ := ctrlSound_iff.1 (law.runs d).sound
      have sound : ctrlSound { s.ctrl d with setup := x, counts := false } = true :=
        ctrlSound_iff.2 ⟨pins, cold, timer, bound, sound, divisor, loss⟩
      rw [here]
      exact .off sound off
    · rw [here]
    · rw [here]; exact id
  rcases s.putSetup_written d x with written | ⟨p, written⟩
  · rw [written]; exact put
  · rw [written]; exact put.told (State.recompute_told p _) fun _ => rfl

/-- The divisor exponent and DCLK move together (R94). -/
def Ctrl.divided (r : Ctrl) (k : Nat) : Ctrl :=
  { r with divisor := k, pins := if ranAtDivided r.state then { r.pins with dclk := .divided k } else r.pins }

theorem State.divide_becomes (k : Nat) (at_ : s.ctrl d = r) :
    Becomes d (r.divided k) (if ranAtDivided r.state ∧ r.pins.dclk ≠ .divided k then [.dclk d (.divided k)] else []) s
      (s.divide d k) := by
  have moved := State.modCtrl_becomes (fun r => { r with divisor := k }) at_
  unfold State.divide Ctrl.divided
  dsimp only
  rw [moved.here]
  dsimp only
  cases runs : ranAtDivided r.state with
  | false => rw [if_neg nofun]; exact moved.as rfl (by simp)
  | true =>
    rw [if_pos rfl]
    refine (moved.trans (State.driveDclk_drives (.divided k) moved.here)).as rfl ?_
    by_cases stands : r.pins.dclk = .divided k <;> simp [stands]

theorem Ctrl.Runs.divided {k : Nat} {late : Prop} (runs : r.Runs late) (range : 1 ≤ k ∧ k ≤ 8) :
    (r.divided k).Runs late := by
  obtain ⟨pins, cold, timer, bound, setup, -, loss⟩ := ctrlSound_iff.1 runs.sound
  refine ⟨ctrlSound_iff.2 ⟨?_, cold, timer, bound, setup, range, loss⟩, runs.ramp, runs.ticks⟩
  unfold Ctrl.divided
  rw [pins, rowPins, rowPins]
  dsimp only
  cases state : r.state with
  | starting run => cases run <;> rfl
  | linger l => cases l <;> rfl
  | _ => rfl

theorem Lively.divide {k : Nat} (law : Lively s) (range : 1 ≤ k ∧ k ≤ 8) : Lively (s.divide d k) := by
  have divided := State.divide_becomes (s := s) (d := d) k rfl
  refine law.written (d := d) (fun e other => by rw [divided.ctrl, if_neg other]) divided.frame.client ?_ ?_ ?_
  · rw [divided.here]; exact (law.runs d).divided range
  · rw [divided.here]; rfl
  · rw [divided.here]; exact id

theorem setupSound_default (d : Dom) : setupSound (Config.defaultSetup d) = true := by revert d; decide

theorem ctrlSound_initial (d : Dom) (pgood : Bool) : ctrlSound (Ctrl.initial d pgood) = true :=
  ctrlSound_iff.2 ⟨rfl, rfl, .inr rfl, Nat.zero_le _, setupSound_default d,
    show 1 ≤ Config.defaultDivisor ∧ Config.defaultDivisor ≤ 8 by decide, by cases pgood <;> rfl⟩

theorem Lively.blank (s : State) : Lively s.blank := by
  have ctrl (e : Dom) : s.blank.ctrl e = Ctrl.initial e (s.ctrl e).pgood := Vec.get_ofFn _ e
  refine ⟨fun e => ?_, fun o => ?_⟩
  · rw [ctrl]; exact .off (ctrlSound_initial ..) rfl
  · have client : s.blank.client o = ClientRec.initial := Vec.get_replicate _ o
    rw [ctrl, client]
    exact ⟨rfl, Nat.zero_le _, nofun⟩

/-- While RESET_N is low the PGOOD input moves alone (R162). -/
theorem Lively.input {high : Bool} (law : Lively s) (held : HeldLaw s) (low : s.resetLow = true) :
    Lively (s.setPgood d high) := by
  have initial : s.ctrl d = Ctrl.initial d (s.ctrl d).pgood := by
    conv_lhs => rw [held low]
    exact Vec.get_ofFn _ d
  have here : (s.setPgood d high).ctrl d = Ctrl.initial d high := by
    rw [State.setPgood_ctrl, if_pos rfl, initial]
    rfl
  refine law.written (d := d) (fun e other => by rw [State.setPgood_ctrl, if_neg other]) (fun _ => rfl) ?_ ?_ ?_
  · rw [here]; exact .off (ctrlSound_initial ..) rfl
  · rw [here, initial]; rfl
  · rw [initial]; exact nofun

/-- A loss that waits (R112). -/
theorem Lively.fall (law : Lively s) : Lively ((s.setPgood d false).setLoss d true) := by
  have here : ((s.setPgood d false).setLoss d true).ctrl d = { s.ctrl d with pgood := false, lossPending := true } := by
    rw [State.setLoss_ctrl, if_pos rfl, State.setPgood_ctrl, if_pos rfl]
  refine law.written (d := d) (fun e other => ?_) (fun _ => rfl) ?_ ?_ ?_
  · rw [State.setLoss_ctrl, if_neg other, State.setPgood_ctrl, if_neg other]
  · obtain ⟨pins, cold, timer, bound, setup, divisor, -⟩ := ctrlSound_iff.1 (law.runs d).sound
    rw [here]
    exact ⟨ctrlSound_iff.2 ⟨pins, cold, timer, bound, setup, divisor, rfl⟩, fun _ => rfl, (law.runs d).ticks⟩
  · rw [here]
  · rw [here]; simp [Ctrl.eventWaits]

/-! ### Events of a controller (R76) -/

/-- An event of one controller, over a record of its own. -/
theorem Lively.event {passage : State → State} (law : Lively s) (other : ∀ e, e ≠ d → u.ctrl e = s.ctrl e)
    (client : ∀ o, u.client o = s.client o) (here : u.ctrl d = x) (sound : ctrlSound x = true) (lasts : Lasts x place)
    (comes : Comes d x place u (passage u)) : Lively (u.event d passage) := by
  have records := resetLineLaw_iff.1 law.reset
  subst here
  obtain ⟨runs, reset⟩ := State.event_runs (late := fun _ => False) comes sound lasts
    (fun e away => by rw [other e away]; exact law.runs e)
    (fun o away => by rw [client, other _ away]; exact (records o).1) (fun o => by rw [client]; exact (records o).2)
  exact ⟨fun e => (runs e).mono And.right, reset⟩

theorem parentPlace_lasts (runs : r.Runs False) (permitted : Bool) : Lasts r (parentPlace r permitted) := by
  obtain ⟨-, -, -, -, setup, -⟩ := ctrlSound_iff.1 runs.sound
  unfold parentPlace
  split
  · exact heldPlace_lasts setup _
  · exact runs.lasts

theorem presentPlace_lasts (sound : ctrlSound r = true) (ticks : timed r.state = true → 0 < r.timer)
    (permitted : Bool) :
    Lasts r (presentPlace r permitted) := by
  obtain ⟨-, -, timer, bound, setup, -⟩ := ctrlSound_iff.1 sound
  unfold presentPlace
  split
  · exact heldPlace_lasts setup _
  · next away => exact ⟨⟨timer, bound⟩, ticks, fun here => absurd here away⟩

theorem Lively.demandChange (law : Lively s) :
    Lively ((s.modCtrl d (fun r => { r with demandPending := false })).event d (State.demandStep d)) := by
  have here : (s.modCtrl d (fun r => { r with demandPending := false })).ctrl d
      = { s.ctrl d with demandPending := false } := by
    rw [State.modCtrl_ctrl, if_pos rfl]
  have runs : Ctrl.Runs { s.ctrl d with demandPending := false } False :=
    ⟨(law.runs d).sound, (law.runs d).ramp, (law.runs d).ticks⟩
  exact law.event (fun e other => by rw [State.modCtrl_ctrl, if_neg other]) (fun _ => rfl) here runs.sound
    (demandPlace_lasts runs _) (State.demandStep_comes here runs.sound)

theorem Lively.parentChange (law : Lively s) :
    Lively ((s.modCtrl d (fun r => { r with parentPending := false })).event d (State.parentStep d)) := by
  have here : (s.modCtrl d (fun r => { r with parentPending := false })).ctrl d
      = { s.ctrl d with parentPending := false } := by
    rw [State.modCtrl_ctrl, if_pos rfl]
  have runs : Ctrl.Runs { s.ctrl d with parentPending := false } False :=
    ⟨(law.runs d).sound, (law.runs d).ramp, (law.runs d).ticks⟩
  exact law.event (fun e other => by rw [State.modCtrl_ctrl, if_neg other]) (fun _ => rfl) here runs.sound
    (parentPlace_lasts runs _) (State.parentStep_comes here runs.sound)

theorem Lively.present (law : Lively s) (unlost : (s.ctrl d).lossPending = false) :
    Lively ((s.setPgood d true).event d (State.pgoodStep d)) := by
  have here : (s.setPgood d true).ctrl d = { s.ctrl d with pgood := true } := by rw [State.setPgood_ctrl, if_pos rfl]
  obtain ⟨pins, cold, timer, bound, setup, divisor, -⟩ := ctrlSound_iff.1 (law.runs d).sound
  have sound : ctrlSound { s.ctrl d with pgood := true } = true :=
    ctrlSound_iff.2 ⟨pins, cold, timer, bound, setup, divisor, by simp [unlost]⟩
  exact law.event (fun e other => by rw [State.setPgood_ctrl, if_neg other]) (fun _ => rfl) here sound
    (presentPlace_lasts sound ((law.runs d).ticks id) _) (State.pgoodStep_comes here sound rfl)

theorem Lively.loss (law : Lively s) :
    Lively (((s.setPgood d false).setLoss d false).event d (State.lossStep d)) := by
  have here : ((s.setPgood d false).setLoss d false).ctrl d
      = { s.ctrl d with pgood := false, lossPending := false } := by
    rw [State.setLoss_ctrl, if_pos rfl, State.setPgood_ctrl, if_pos rfl]
  obtain ⟨pins, cold, timer, bound, setup, divisor, -⟩ := ctrlSound_iff.1 (law.runs d).sound
  have runs : Ctrl.Runs { s.ctrl d with pgood := false, lossPending := false } False :=
    ⟨ctrlSound_iff.2 ⟨pins, cold, timer, bound, setup, divisor, rfl⟩, fun _ => rfl, (law.runs d).ticks⟩
  exact law.event (fun e other => by rw [State.setLoss_ctrl, if_neg other, State.setPgood_ctrl, if_neg other])
    (fun _ => rfl) here runs.sound runs.lasts (State.lossStep_comes here runs.sound)

theorem Lively.clear (law : Lively s) (faulted : (s.ctrl d).state = .fault) :
    Lively (s.event d (State.toDischarge d)) := by
  obtain ⟨-, -, -, -, setup, -⟩ := ctrlSound_iff.1 (law.runs d).sound
  exact law.event (fun _ _ => rfl) (fun _ => rfl) rfl (law.runs d).sound (dischargePlace_lasts setup)
    (.inr (State.clear_lands rfl (law.runs d).sound faulted))

/-! ### The tick (R45, R77, R141) -/

theorem State.endTimer_lively (runs : ∀ e, (s.ctrl e).Runs (late e)) (reset : ResetLineLaw s) (d : Dom) :
    (∀ e, ((s.endTimer d).ctrl e).Runs (e ≠ d ∧ late e)) ∧ ResetLineLaw (s.endTimer d) := by
  have records := resetLineLaw_iff.1 reset
  unfold State.endTimer
  split
  · next ends =>
    exact State.event_runs (State.endStep_comes rfl (runs d).sound) (runs d).sound
      (endPlace_lasts (runs d).sound (runs d).ramp ends.1 _) (fun e _ => runs e) (fun o _ => (records o).1)
      fun o => (records o).2
  · next stays =>
    refine ⟨fun e => ⟨(runs e).sound, (runs e).ramp, fun now timed => ?_⟩, reset⟩
    by_cases here : e = d
    · exact Nat.pos_of_ne_zero fun zero => stays (here ▸ ⟨timed, zero⟩)
    · exact (runs e).ticks (fun before => now ⟨here, before⟩) timed

theorem State.endTimers_lively (order : List Dom) (runs : ∀ e, (s.ctrl e).Runs (late e)) (reset : ResetLineLaw s) :
    (∀ e, ((s.endTimers order).ctrl e).Runs (e ∉ order ∧ late e)) ∧ ResetLineLaw (s.endTimers order) := by
  induction order generalizing s late with
  | nil => exact ⟨fun e => (runs e).mono fun before => ⟨List.not_mem_nil, before⟩, reset⟩
  | cons d order ih =>
    obtain ⟨runs, reset⟩ := State.endTimer_lively runs reset d
    obtain ⟨runs, reset⟩ := ih runs reset
    refine ⟨fun e => (runs e).mono fun ⟨later, other, before⟩ => ⟨?_, before⟩, reset⟩
    simp [later, other]

theorem State.tickPulse_lively (law : Lively s) (c : Client) : Lively (s.tickPulse c) := by
  have ctrl := (s.tickPulse_frame c).ctrl
  refine ⟨fun e => by rw [ctrl]; exact law.runs e, resetLineLaw_iff.2 fun o => ?_⟩
  obtain ⟨lined, calm⟩ := resetLineLaw_iff.1 law.reset o
  rw [ctrl]
  by_cases same : o = c
  · subst same
    rw [State.tickPulse_self]
    split
    · refine ⟨⟨by simp, fun tied => ?_⟩, Nat.zero_le _, fun _ => rfl⟩
      simp only [Bool.and_eq_true, Bool.not_eq_true'] at tied
      exact ⟨tied.1.2, tied.2⟩
    · next runs =>
      have still : decide (0 < (s.client o).pulse - 1) = decide (0 < (s.client o).pulse) :=
        decide_eq_decide.2 (by omega)
      refine ⟨⟨?_, lined.tied⟩, (Nat.sub_le ..).trans calm.pulse, fun tied => ?_⟩
      · dsimp only
        rw [still]
        exact lined.crst
      · dsimp only
        rw [calm.tied tied]
  · rw [State.tickPulse_client _ _ _ same]
    exact ⟨lined, calm⟩

theorem Lively.tickPulses (law : Lively s) : Lively s.tickPulses := by
  unfold State.tickPulses
  generalize List.finRange 4 = cs
  induction cs generalizing s with
  | nil => exact law
  | cons c cs ih => exact ih (State.tickPulse_lively law c)

theorem Lively.tick (law : Lively s) {order : List Dom} (all : ∀ d, d ∈ order) : Lively (s.wholeTick order) := by
  have counted (e : Dom) : (s.countTick.ctrl e).Runs True := by
    rw [State.countTick_ctrl]
    exact ⟨ctrlSound_ticked (law.runs e).sound, (law.runs e).ramp, fun now => absurd trivial now⟩
  have reset : ResetLineLaw s.countTick := fun o => by rw [State.countTick_ctrl]; exact law.reset o
  obtain ⟨runs, reset⟩ := State.endTimers_lively order counted reset
  have made : Lively (s.countTick.endTimers order) := ⟨fun e => (runs e).mono fun late => late.1 (all e), reset⟩
  unfold State.wholeTick
  rw [State.endDelay_frame]
  exact made.tickPulses.congr rfl rfl

/-! ### The steps -/

theorem Steers.lively (h : Steers s u) (law : Lively s) (held : HeldLaw s) : Lively u := by
  cases h with
  | still still => exact law.still still
  | setup sound off => exact law.setup sound off
  | divide range => exact law.divide range
  | clear faulted => exact law.clear faulted
  | demand => exact law.demandChange
  | parent => exact law.parentChange
  | input low => exact law.input held low
  | present unlost => exact law.present unlost
  | fall => exact law.fall
  | loss => exact law.loss
  | tick all => exact law.tick all

theorem risen_runs (plan : Fin 4) (d : Dom) (pgood up called : Bool) : (risen plan d pgood up called).Runs False := by
  have sound : ctrlSound (fed plan d pgood called) = true := ctrlSound_initial d pgood
  unfold risen
  refine Lasts.placed ?_ sound _
  split
  · exact powerPlace_lasts (setupSound_default d) _
  · exact .zero _ rfl

theorem Lively.start (plan : Fin 4) (s : State) (quiet : s.changes = []) : Lively (State.start plan s) := by
  have posed := State.start_posed plan s quiet
  have frame := State.start_frame plan s quiet
  refine ⟨fun e => by rw [posed.ctrl]; exact risen_runs .., fun o => ?_⟩
  have client : (State.start plan s).client o = ClientRec.initial := by
    rw [frame]; exact Vec.get_replicate _ o
  rw [client, posed.ctrl, risen_cold (posed.led _)]
  exact ⟨rfl, Nat.zero_le _, nofun⟩

theorem Steered.lively (h : Steered s t) (law : Lively s) (held : HeldLaw s) : Lively t := by
  have begun : Lively s.begin := law.congr rfl rfl
  have held : HeldLaw s.begin := State.begin_heldLaw held
  cases h with
  | idle => exact law
  | event steers => exact (steers.lively begun held).judged
  | taken steers ctrls clients => exact ((steers.lively begun held).congr ctrls clients).handOn.judged
  | reset => exact (Lively.blank _).judged
  | start => exact (Lively.start _ _ rfl).judged

/-- Settles O56: no step but an event of a controller moves an output of a domain or CRST_N for its home, and an event
leaves its domain at a place whose timer runs, with the outputs and CRST_N that follow (`State.event_runs`). -/
theorem stepsKeepTheOutputs : Obligations.StepsKeepTheOutputs := by
  intro s t held output ends reset e
  have law := lively_iff.2 ⟨output, ends, reset⟩
  rcases step_exec e with rfl | ⟨c, rest, e⟩
  · exact lively_iff.1 law
  · have queued : HeldLaw { s with pending := rest } := fun low => by
      change { s with pending := rest } = { s.blank with pending := rest }
      rw [← held low]
    exact lively_iff.1 ((exec_steered c e).lively (law.congr rfl rfl) queued)

end Lively

end Sys2Proof.Machine

/-! ## Demand changes and parent changes through every step -/

namespace Sys2Proof.Machine

open Sys2Proof.Statement

section Tended

variable {s t u v w : State} {d e c p : Dom} {r x y : Ctrl} {place : DomState × Nat} {before m : Reach} {st : DomState}
  {barred barred' : Bool} {cause : FaultCause} {plan : Fin 4}

/-! ### Where a demand puts a controller (R78 to R86, R116) -/

/-- Whether a state is where a demand puts a controller; HELD is that too for one which may not start, or has a parent
change on its way. -/
def fits (st : DomState) (m : Reach) (barred : Bool) : Bool :=
  match st, m with
  | .off, m => decide (m = none)
  | .held, none => false
  | .held, some .hold => true
  | .held, some _ => barred
  | .starting run, m => decide (m = some run.level)
  | .slow, m => decide (m = some .slow)
  | .full, m => decide (m = some .full)
  | .linger l, m => decide (reachRank m < reachRank (some l))
  | .powering, _ | .discharge, _ | .fault, _ => true

theorem atDemand_eq (s : State) (d : Dom) :
    atDemand s d = fits (s.ctrl d).state (s.ctrl d).demand (!s.permits d || (s.ctrl d).parentPending) := by
  unfold atDemand fits
  split <;> simp_all

theorem fits_away (away : st ≠ .held) : fits st m barred = fits st m barred' := by
  cases st with
  | held => exact absurd rfl away
  | _ => rfl

theorem fits_mono (h : fits st m barred = true) (more : barred = true → barred' = true) :
    fits st m barred' = true := by
  by_cases held : st = .held
  · subst held
    rcases m with _ | _ | _ | _
    · exact h
    · exact h
    · exact more h
    · exact more h
  · rw [fits_away held (barred' := barred)]; exact h

theorem fits_run (run : Run) : fits run.state (some run.level) barred = true := by cases run <;> rfl

theorem lingerHoldPlace_fitted (low : r.demand = none) : fits (lingerHoldPlace r).1 r.demand barred = true := by
  unfold lingerHoldPlace
  rw [low]
  split <;> rfl

theorem startPlace_fitted {run : Run} (demand : r.demand = some run.level) :
    fits (startPlace r run).1 r.demand barred = true := by
  unfold startPlace
  rw [demand]
  split
  · exact decide_eq_true rfl
  · split
    · rfl
    · exact fits_run run

theorem heldPlace_fitted (r : Ctrl) (permitted : Bool) :
    fits (heldPlace r permitted).1 r.demand (!permitted) = true := by
  rcases reach_cases r.demand with demand | demand | ⟨run, demand⟩
  · have place : heldPlace r permitted = lingerHoldPlace r := by unfold heldPlace; rw [demand]
    rw [place]
    exact lingerHoldPlace_fitted demand
  · unfold heldPlace; rw [demand]; rfl
  · rw [heldPlace_run demand]
    cases permitted with
    | true => exact startPlace_fitted demand
    | false => rw [demand]; cases run <;> rfl

theorem fallPlace_fitted (r : Ctrl) (permitted : Bool) :
    fits (fallPlace r permitted).1 r.demand (!permitted) = true := by
  have held := heldPlace_fitted r permitted
  unfold fallPlace
  rcases reach_cases r.demand with demand | demand | ⟨run, demand⟩
  · rw [demand] at held ⊢; exact held
  · rw [demand] at held ⊢; exact held
  · rw [demand]; cases run <;> rfl

theorem powerPlace_fitted (r : Ctrl) (permitted : Bool) :
    fits (powerPlace r permitted).1 r.demand (!permitted) = true := by
  unfold powerPlace
  split
  · exact heldPlace_fitted r permitted
  · rfl

theorem lingerRunPlace_fitted {run : Run} (low : reachRank r.demand < reachRank (some run.level)) (permitted : Bool) :
    fits (lingerRunPlace r permitted run).1 r.demand (!permitted) = true := by
  unfold lingerRunPlace
  split
  · exact fallPlace_fitted r permitted
  · exact decide_eq_true low

theorem lingerPlace_fitted (r : Ctrl) (permitted : Bool) (l : Level) :
    fits (lingerPlace r permitted l).1 r.demand (!permitted) = true := by
  unfold lingerPlace
  cases l with
  | hold =>
    dsimp only
    split
    · rfl
    · exact heldPlace_fitted r permitted
  | slow | full => exact fallPlace_fitted r permitted

/-- A demand change leads where the demand puts the controller. -/
theorem demandPlace_fitted (r : Ctrl) (permitted : Bool) :
    fits (demandPlace r permitted).1 r.demand (!permitted) = true := by
  have held := heldPlace_fitted r permitted
  have lingers (run : Run) := lingerRunPlace_fitted (r := r) (run := run) (permitted := permitted)
  unfold demandPlace
  cases state : r.state with
  | off =>
    cases demand : r.demand with
    | none => rfl
    | some m =>
      have powers := powerPlace_fitted r permitted
      rw [demand] at powers
      exact powers
  | powering | discharge | fault => rfl
  | held => exact held
  | starting from_ =>
    rcases reach_cases r.demand with demand | demand | ⟨run, demand⟩
    · rw [demand] at held ⊢; exact held
    · rw [demand] at held ⊢; exact held
    · rw [demand]; cases run <;> rfl
  | slow =>
    have lingers := lingers .slow
    rcases reach_cases r.demand with demand | demand | ⟨run, demand⟩
    · rw [demand] at lingers ⊢; exact lingers (by decide)
    · rw [demand] at lingers ⊢; exact lingers (by decide)
    · rw [demand]; cases run <;> rfl
  | full =>
    have lingers := lingers .full
    rcases reach_cases r.demand with demand | demand | ⟨run, demand⟩
    · rw [demand] at lingers ⊢; exact lingers (by decide)
    · rw [demand] at lingers ⊢; exact lingers (by decide)
    · rw [demand] at lingers ⊢
      cases run with
      | slow => exact lingers (by decide)
      | full => rfl
  | linger l =>
    dsimp only
    split
    · next low => exact decide_eq_true low
    · exact lingerPlace_fitted r permitted l

/-- A timed step leads where the demand puts the controller, if the level it starts to is still the one demanded. -/
theorem endPlace_fitted (stood : fits r.state r.demand barred = true) (ends : timed r.state = true) (permitted : Bool) :
    fits (endPlace r permitted).1 r.demand (!permitted) = true := by
  unfold endPlace
  cases state : r.state with
  | powering => dsimp only; split <;> rfl
  | starting run =>
    rw [state] at stood
    dsimp only
    split
    · rfl
    · rw [of_decide_eq_true stood]; exact fits_run run
  | linger l => exact lingerPlace_fitted r permitted l
  | discharge =>
    dsimp only
    split
    · next idle => exact decide_eq_true idle
    · exact powerPlace_fitted r permitted
  | off | held | slow | full | fault => rw [state] at ends; cases ends

theorem stoppedPlace_fitted (r : Ctrl) : fits (stoppedPlace r).1 r.demand true = true := by
  unfold stoppedPlace
  split
  · next idle => exact lingerHoldPlace_fitted idle
  · next wanted => cases demand : r.demand with
    | none => exact absurd demand wanted
    | some l => cases l <;> rfl

/-! ### What is handed on loses nothing (R76, R97 to R99) -/

/-- A controller stands where its demand puts it, or has a demand change on its way. -/
def Ctrl.Settled (r : Ctrl) (barred : Bool) : Prop :=
  r.demandPending = true ∨ fits r.state r.demand barred = true

/-- A controller is counted as its state and demand stand, or has a demand change on its way. -/
def Ctrl.Reckoned (r : Ctrl) : Prop := r.demandPending = true ∨ r.counts = r.counted

theorem settledLaw_iff :
    SettledLaw s ↔ ∀ e, (s.ctrl e).Settled (!s.permits e || (s.ctrl e).parentPending) := by
  refine forall_congr' fun e => ?_
  rw [atDemand_eq, Bool.or_eq_true]
  rfl

theorem Ctrl.Told.settled (told : x.Told y) (h : x.Settled barred) (more : barred = true → barred' = true) :
    y.Settled barred' := by
  rcases h with pends | fits
  · exact .inl (told.pends pends)
  · refine told.moved.imp_right fun demand => ?_
    rw [told.state, demand]
    exact fits_mono fits more

theorem Ctrl.Told.reckoned (told : x.Told y) (counts : y.counts = x.counts) (h : x.Reckoned) : y.Reckoned := by
  rcases h with pends | counted
  · exact .inl (told.pends pends)
  · refine told.moved.imp_right fun demand => ?_
    unfold Ctrl.counted at counted ⊢
    rw [counts, told.state, demand, counted]

theorem State.tellChildren_counts (d : Dom) (before : Reach) (s : State) (e : Dom) :
    ((s.tellChildren d before).ctrl e).counts = (s.ctrl e).counts := by
  rw [State.tellChildren_ctrl]; split <;> rfl

theorem State.tellChildren_derivedDemand (d : Dom) (before : Reach) (s : State) (e : Dom) :
    ((s.tellChildren d before).ctrl e).derivedDemand = (s.ctrl e).derivedDemand := by
  rw [State.tellChildren_ctrl]; split <;> rfl

theorem State.recount_counts (other : e ≠ d) (s : State) : ((s.recount d).ctrl e).counts = (s.ctrl e).counts := by
  rw [State.recount_ctrl, if_neg other]

/-- The controllers at the end of a change are those before CRST_N. -/
theorem State.handNeighbours_ctrl (d : Dom) (before : Reach) (s : State) (e : Dom) :
    (s.handNeighbours d before).ctrl e = (s.handTree d before).ctrl e := by
  rw [State.handNeighbours_eq, State.syncHome_ctrl]

theorem State.handNeighbours_setup (d : Dom) (before : Reach) (s : State) (e : Dom) :
    ((s.handNeighbours d before).ctrl e).setup = (s.ctrl e).setup := (s.handNeighbours_told d before e).setup

theorem State.handNeighbours_state (d : Dom) (before : Reach) (s : State) (e : Dom) :
    ((s.handNeighbours d before).ctrl e).state = (s.ctrl e).state := (s.handNeighbours_told d before e).state

theorem State.handNeighbours_counts (other : e ≠ d) (before : Reach) (s : State) :
    ((s.handNeighbours d before).ctrl e).counts = (s.ctrl e).counts := by
  rw [State.handNeighbours_ctrl]
  unfold State.handTree
  rw [State.recomputeParent_counts, State.recount_counts other, State.tellChildren_counts]

theorem State.recount_derivedDemand (s : State) :
    ((s.recount d).ctrl e).derivedDemand = (s.ctrl e).derivedDemand := by
  rw [State.recount_ctrl]
  split
  · next here => rw [here]
  · rfl

/-- Every domain but the parent of the one that was counted anew has its children counted as before. -/
theorem State.recount_derivedFrom (s : State) (away : s.parent d ≠ some p) :
    (s.recount d).derivedFrom p = s.derivedFrom p := by
  refine State.derivedFrom_children (fun c => (s.recount_told d c).setup) fun c child => State.recount_counts ?_ s
  rintro rfl
  exact away child

theorem Ctrl.hand_derived (r : Ctrl) (lease derived : Reach) : (r.hand lease derived).derivedDemand = derived := rfl

/-- What the end of a change hands on keeps every derived demand that of the children as counted (R97, R98). -/
theorem State.handNeighbours_derived (derived : ∀ p, (s.ctrl p).derivedDemand = s.derivedFrom p) (p : Dom) :
    ((s.handNeighbours d before).ctrl p).derivedDemand = (s.handNeighbours d before).derivedFrom p := by
  have same : (s.handNeighbours d before).derivedFrom p = (s.handTree d before).derivedFrom p :=
    State.derivedFrom_congr (fun e => by rw [State.handNeighbours_ctrl]) (fun e => by rw [State.handNeighbours_ctrl]) p
  have told (p : Dom) : ((s.tellChildren d before).ctrl p).derivedDemand = (s.tellChildren d before).derivedFrom p := by
    rw [State.derivedFrom_congr (fun e => (s.tellChildren_told d before e).setup)
      (State.tellChildren_counts d before s),
      State.tellChildren_derivedDemand, derived]
  rw [same, State.handNeighbours_ctrl]
  unfold State.handTree
  rw [State.recomputeParent_derivedFrom, State.recomputeParent_ctrl]
  split
  · exact Ctrl.hand_derived ..
  · next away =>
    rw [State.recount_derivedDemand, told, State.recount_derivedFrom]
    rwa [(State.recount_told d _ d).setup] at away

/-- What the end of a change hands on counts its domain (R97, R98). -/
theorem State.handNeighbours_counted (rooted : s.parent d ≠ some d) :
    ((s.handNeighbours d before).ctrl d).counts = ((s.handNeighbours d before).ctrl d).counted := by
  have setup : (((s.tellChildren d before).recount d).ctrl d).setup = (s.ctrl d).setup :=
    ((s.tellChildren_told d before d).trans (State.recount_told ..)).setup
  rw [State.handNeighbours_ctrl]
  unfold State.handTree
  rw [State.recomputeParent_ctrl, setup, if_neg (show (s.ctrl d).setup.parent ≠ some d from rooted),
    State.recount_ctrl, if_pos rfl]
  generalize (s.tellChildren d before).ctrl d = x
  rfl

theorem State.permits_child (child : s.parent e = some p) :
    s.permits e = decide (reachRank (some (s.ctrl e).setup.need) ≤ reachRank (effLevel (s.ctrl p).state)) := by
  unfold State.permits
  rw [show (s.ctrl e).setup.parent = some p from child]

/-- A domain that may not start has a parent, whose level is below its need (R80, R95). -/
theorem State.permits_barred :
    s.permits e = false ↔ ∃ p, s.parent e = some p
      ∧ reachRank (effLevel (s.ctrl p).state) < reachRank (some (s.ctrl e).setup.need) := by
  unfold State.permits State.parent
  cases (s.ctrl e).setup.parent with
  | none => simp
  | some p => simp

/-- A child whose need its parent's level has risen to since `before` has a parent change on its way (R99). -/
theorem State.handNeighbours_called (child : s.parent e = some d)
    (low : reachRank before < reachRank (some (s.ctrl e).setup.need)) (permits : s.permits e = true) :
    ((s.handNeighbours d before).ctrl e).parentPending = true := by
  have calls : s.calls d before e = true := by
    rw [State.permits_child child] at permits
    unfold State.calls crosses
    rw [decide_eq_true (show (s.ctrl e).setup.parent = some d from child), permits,
      decide_eq_false (Nat.not_le.2 low)]
    rfl
  have told : ((s.tellChildren d before).ctrl e).parentPending = true := by
    rw [State.tellChildren_ctrl, if_pos calls]
  rw [State.handNeighbours_ctrl]
  exact ((State.recount_told d _ e).trans (State.recomputeParent_told d _ e)).called told

theorem State.permits_handed (d : Dom) (before : Reach) (s : State) (e : Dom) :
    (s.handNeighbours d before).permits e = s.permits e := by
  unfold State.permits
  simp only [State.handNeighbours_setup, State.handNeighbours_state]

/-! ### What an event in its passages loses nothing of -/

/-- Whether a domain may not start, or has a parent change on its way, or has none yet of the rise of domain `d` from
the level `before`, which the end of the event at `d` tells it. -/
def State.withheld (d : Dom) (before : Reach) (s : State) (e : Dom) : Bool :=
  !s.permits e || (s.ctrl e).parentPending
    || decide (s.parent e = some d ∧ reachRank before < reachRank (some (s.ctrl e).setup.need))

/-- What stands in the passages of an event at domain `d`, whose level was `before`. -/
structure Minded (d : Dom) (before : Reach) (s : State) : Prop where
  settled : ∀ e, (s.ctrl e).Settled (s.withheld d before e)
  derived : ∀ p, (s.ctrl p).derivedDemand = s.derivedFrom p
  counted : ∀ e, e ≠ d → (s.ctrl e).Reckoned
  rooted : ∀ e, s.parent e ≠ some e

/-- The laws between events. -/
structure Tended (s : State) : Prop where
  settled : SettledLaw s
  derived : DerivedLaw s
  rooted : ∀ e, s.parent e ≠ some e

/-- What stands when the event of domain `d` begins. -/
structure Tending (d : Dom) (s : State) : Prop where
  settled : ∀ e, e ≠ d → (s.ctrl e).Settled (!s.permits e || (s.ctrl e).parentPending)
  derived : ∀ p, (s.ctrl p).derivedDemand = s.derivedFrom p
  counted : ∀ e, e ≠ d → (s.ctrl e).Reckoned
  rooted : ∀ e, s.parent e ≠ some e

theorem Tended.tending (h : Tended s) (d : Dom) : Tending d s :=
  ⟨fun e _ => settledLaw_iff.1 h.settled e, h.derived.1, fun e _ => h.derived.2 e, h.rooted⟩

/-- The passages rest on the controllers alone. -/
theorem Minded.congr (h : Minded d before s) (ctrl : ∀ e, t.ctrl e = s.ctrl e) : Minded d before t := by
  have permits (e : Dom) : t.permits e = s.permits e := State.permits_congr ctrl e
  have parent (e : Dom) : t.parent e = s.parent e := by unfold State.parent; rw [ctrl]
  have derived (p : Dom) : t.derivedFrom p = s.derivedFrom p :=
    State.derivedFrom_congr (fun e => by rw [ctrl]) (fun e => by rw [ctrl]) p
  refine ⟨fun e => ?_, fun p => ?_, fun e other => ?_, fun e => ?_⟩
  · unfold State.withheld; rw [ctrl, permits, parent]; exact h.settled e
  · rw [ctrl, derived]; exact h.derived p
  · rw [ctrl]; exact h.counted e other
  · rw [parent]; exact h.rooted e

/-- The end of the event tells every child whose need the rise has met, counts the domain and hands on to its parent. -/
theorem Minded.ends (h : Minded d before s) : Tended (s.handNeighbours d before) := by
  refine ⟨settledLaw_iff.2 fun e => ?_, ⟨State.handNeighbours_derived h.derived, fun e => ?_⟩, fun e => ?_⟩
  · have told := s.handNeighbours_told d before e
    refine told.settled (h.settled e) fun withheld => ?_
    rw [State.permits_handed]
    simp only [State.withheld, Bool.or_eq_true, Bool.not_eq_true', decide_eq_true_eq] at withheld ⊢
    rcases withheld with (barred | called) | ⟨child, low⟩
    · exact .inl barred
    · exact .inr (told.called called)
    · cases permits : s.permits e with
      | false => exact .inl rfl
      | true => exact .inr (State.handNeighbours_called child low permits)
  · by_cases here : e = d
    · subst here; exact .inr (State.handNeighbours_counted (h.rooted e))
    · exact (s.handNeighbours_told d before e).reckoned (State.handNeighbours_counts here before s) (h.counted e here)
  · unfold State.parent
    rw [State.handNeighbours_setup]
    exact h.rooted e

/-- Passages that leave domain `d` where its demand puts it. -/
theorem Tending.minded (h : Tending d s) (ctrl : ∀ e, w.ctrl e = replaced s.ctrl d x e)
    (setup : x.setup = (s.ctrl d).setup)
    (counts : x.counts = (s.ctrl d).counts) (derived : x.derivedDemand = (s.ctrl d).derivedDemand)
    (settled : x.Settled (!w.permits d || x.parentPending)) : Minded d (effLevel (s.ctrl d).state) w := by
  have here : w.ctrl d = x := by rw [ctrl, replaced, if_pos rfl]
  have other (e : Dom) (other : e ≠ d) : w.ctrl e = s.ctrl e := by rw [ctrl, replaced, if_neg other]
  have setups (e : Dom) : (w.ctrl e).setup = (s.ctrl e).setup := by
    by_cases same : e = d
    · rw [same, here, setup]
    · rw [other e same]
  have derivedFrom (p : Dom) : w.derivedFrom p = s.derivedFrom p := by
    refine State.derivedFrom_congr setups (fun e => ?_) p
    by_cases same : e = d
    · rw [same, here, counts]
    · rw [other e same]
  refine ⟨fun e => ?_, fun p => ?_, fun e away => by rw [other e away]; exact h.counted e away, fun e => ?_⟩
  · by_cases same : e = d
    · subst same
      rw [here]
      refine settled.imp_right fun stands => fits_mono stands fun withheld => ?_
      unfold State.withheld
      rw [here, withheld, Bool.true_or]
    · rw [other e same]
      refine (h.settled e same).imp_right fun stands => fits_mono stands fun withheld => ?_
      simp only [State.withheld, other e same, Bool.or_eq_true, Bool.not_eq_true', decide_eq_true_eq] at withheld ⊢
      refine withheld.elim (fun barred => ?_) fun called => .inl (.inr called)
      obtain ⟨p, child, low⟩ := State.permits_barred.1 barred
      have child' : w.parent e = some p := by unfold State.parent; rw [other e same]; exact child
      by_cases up : p = d
      · subst up
        exact .inr ⟨child', low⟩
      · refine .inl (.inl (State.permits_barred.2 ⟨p, child', ?_⟩))
        rw [other p up, other e same]
        exact low
  · rw [derivedFrom]
    by_cases same : p = d
    · rw [same, here, derived]; exact h.derived d
    · rw [other p same]; exact h.derived p
  · unfold State.parent
    rw [setups]
    exact h.rooted e

/-! ### The forced stop loses nothing (R104, R105) -/

theorem effLevel_started (started : isStarted st = true) : 1 ≤ reachRank (effLevel st) := by
  cases st with
  | starting | slow | full => exact Nat.le_of_ble_eq_true rfl
  | linger l => cases l <;> exact Nat.le_of_ble_eq_true rfl
  | off | powering | held | discharge | fault => cases started

theorem stoppedPlace_level (r : Ctrl) : reachRank (effLevel (stoppedPlace r).1) ≤ 1 := by
  rcases stoppedPlace_cases r with ⟨place, -⟩ | place | place <;> rw [place] <;> exact Nat.le_of_ble_eq_true rfl

/-- Where levels only fall, a domain that may not start still may not. -/
theorem State.permits_falls (setup : ∀ e, (t.ctrl e).setup = (s.ctrl e).setup)
    (falls : ∀ p, reachRank (effLevel (t.ctrl p).state) ≤ reachRank (effLevel (s.ctrl p).state))
    (barred : s.permits e = false) : t.permits e = false := by
  obtain ⟨p, child, low⟩ := State.permits_barred.1 barred
  refine State.permits_barred.2 ⟨p, (congrArg Setup.parent (setup e)).trans child, ?_⟩
  rw [setup]
  exact (falls p).trans_lt low

theorem State.stopOne_setup (halted : Halted s (s.halted c) c (s.ctrl c)) (e : Dom) :
    ((s.halted c).ctrl e).setup = (s.ctrl e).setup := by
  rw [halted.ctrl, replaced]
  split
  · next here => rw [here]; rfl
  · rfl

/-- One stop of a domain that has lost the permission of its parent. -/
theorem Minded.stopOne (h : Minded d before s) (sound : ctrlSound (s.ctrl c) = true)
    (started : isStarted (s.ctrl c).state = true) (barred : s.permits c = false) : Minded d before (s.stopOne c) := by
  have halted := State.stops_halted sound started
  have setup := State.stopOne_setup halted
  rw [State.stopOne_eq]
  have falls (p : Dom) : reachRank (effLevel ((s.halted c).ctrl p).state) ≤ reachRank (effLevel (s.ctrl p).state) := by
    rw [halted.ctrl, replaced]
    split
    · next here => rw [here]; exact (stoppedPlace_level _).trans (effLevel_started started)
    · exact le_refl _
  have counts (e : Dom) : ((s.halted c).ctrl e).counts = (s.ctrl e).counts := by
    rw [halted.ctrl, replaced]
    split
    · next here => rw [here]; rfl
    · rfl
  have derived (p : Dom) : ((s.halted c).ctrl p).derivedDemand = (s.halted c).derivedFrom p := by
    rw [State.derivedFrom_congr setup counts, ← h.derived, halted.ctrl, replaced]
    split
    · next here => rw [here]; rfl
    · rfl
  have parent (e : Dom) : (s.halted c).parent e = s.parent e := congrArg Setup.parent (setup e)
  refine ⟨fun e => ?_, State.handNeighbours_derived derived, fun e away => ?_, fun e => ?_⟩
  · have told := (s.halted c).handNeighbours_told c (effLevel (s.ctrl c).state) e
    have withheld_halted : s.withheld d before e = true → (s.halted c).withheld d before e = true := fun withheld => by
      have called : ((s.halted c).ctrl e).parentPending = (s.ctrl e).parentPending := by
        rw [halted.ctrl, replaced]
        split
        · next here => rw [here]; rfl
        · rfl
      simp only [State.withheld, Bool.or_eq_true, Bool.not_eq_true', decide_eq_true_eq, parent, setup, called]
        at withheld ⊢
      exact withheld.imp_left (Or.imp_left (State.permits_falls setup falls))
    have own : (s.halted c).withheld d before c = true := by
      unfold State.withheld
      rw [State.permits_falls setup falls barred]
      rfl
    have settled : ((s.halted c).ctrl e).Settled ((s.halted c).withheld d before e) := by
      by_cases here : e = c
      · subst here
        rw [own, halted.ctrl, replaced, if_pos rfl]
        exact .inr (stoppedPlace_fitted _)
      · rw [halted.ctrl, replaced, if_neg here]
        exact (h.settled e).imp_right fun stands => fits_mono stands withheld_halted
    refine told.settled settled fun withheld => ?_
    simp only [State.withheld, State.permits_handed, State.parent, State.handNeighbours_setup, Bool.or_eq_true]
      at withheld ⊢
    exact withheld.imp_left (Or.imp_right told.called)
  · by_cases here : e = c
    · subst here
      exact .inr (State.handNeighbours_counted (by rw [parent]; exact h.rooted e))
    · refine ((s.halted c).handNeighbours_told c _ e).reckoned (State.handNeighbours_counts here _ _) ?_
      rw [halted.ctrl, replaced, if_neg here]
      exact h.counted e away
  · unfold State.parent
    rw [State.handNeighbours_setup, setup]
    exact h.rooted e

/-- One stop keeps every controller sound (R87, R89). -/
theorem State.stopOne_sound (output : OutputLaw s) (started : isStarted (s.ctrl c).state = true) :
    OutputLaw (s.stopOne c) := by
  have halted := State.stops_halted (output c) started
  obtain ⟨-, -, -, -, setup, -⟩ := ctrlSound_iff.1 (output c)
  intro e
  rw [State.stopOne_eq, ((s.halted c).handNeighbours_told c _ e).sound, halted.ctrl, replaced]
  split
  · exact ctrlSound_placed (output c) (stoppedPlace_fits setup)
  · exact output e

theorem Minded.stopChildren (h : Minded d before s) (output : OutputLaw s) (n : Nat) (p : Dom) :
    Minded d before (s.stopChildren n p) ∧ OutputLaw (s.stopChildren n p) :=
  State.stopChildren_keeps (P := fun t => Minded d before t ∧ OutputLaw t)
    (fun _ _ _ ⟨minded, output⟩ _ started barred =>
      ⟨minded.stopOne (output _) started barred, State.stopOne_sound output started⟩) n p s ⟨h, output⟩

/-! ### A whole event (R76) -/

/-- Passages that come to a place where the demand puts the domain. -/
theorem Comes.minded (h : Comes d (s.ctrl d) place s t) (output : OutputLaw s) (tending : Tending d s)
    (settled : (s.ctrl d).demandPending = true
      ∨ fits place.1 (s.ctrl d).demand (!s.heldPermits d || (s.ctrl d).parentPending) = true) :
    Minded d (effLevel (s.ctrl d).state) t ∧ (TimerFits place → OutputLaw t) := by
  rcases h with ⟨cause, fails⟩ | lands
  · obtain ⟨v, down, rfl⟩ := fails.downed
    have minded : Minded d (effLevel (s.ctrl d).state) v :=
      tending.minded down.ctrl rfl rfl rfl (.inr rfl)
    have output : OutputLaw v := fun e => by
      rw [down.ctrl, replaced]
      split
      · exact ctrlSound_faultRecord (output d)
      · exact output e
    obtain ⟨minded, output⟩ := minded.stopChildren output 8 d
    have ctrl (e : Dom) : ((v.stopChildren 8 d).raiseHomeLost d).ctrl e = (v.stopChildren 8 d).ctrl e :=
      State.raiseHomeLost_ctrl ..
    exact ⟨minded.congr ctrl, fun _ e => by rw [ctrl]; exact output e⟩
  · refine ⟨tending.minded lands.ctrl rfl rfl rfl (settled.imp_right fun stands => ?_), fun timer e => ?_⟩
    · by_cases held : place.1 = .held
      · rw [lands.permits rfl held]; exact stands
      · exact (fits_away held).trans stands
    · rw [lands.ctrl, replaced]
      split
      · exact ctrlSound_placed (output d) timer
      · exact output e

/-- A whole event loses no demand change and no parent change. -/
theorem State.event_tends {passage : State → State} (comes : Comes d (s.ctrl d) place s (passage s))
    (output : OutputLaw s)
    (tending : Tending d s)
    (settled : (s.ctrl d).demandPending = true
      ∨ fits place.1 (s.ctrl d).demand (!s.heldPermits d || (s.ctrl d).parentPending) = true) :
    Tended (s.event d passage) ∧ (TimerFits place → OutputLaw (s.event d passage)) := by
  obtain ⟨minded, sound⟩ := comes.minded output tending settled
  have ctrl (e : Dom) : ((passage s).grant d (effLevel (s.ctrl d).state)).ctrl e = (passage s).ctrl e := by
    unfold State.grant
    split
    · rfl
    · exact (State.tellGranted_notices ..).ctrl e
  rw [State.event_eq]
  refine ⟨(minded.congr ctrl).ends, fun timer e => ?_⟩
  rw [(State.handNeighbours_told ..).sound, ctrl]
  exact sound timer e

end Tended

end Sys2Proof.Machine

/-! ## No step loses a demand change or a parent change -/

namespace Sys2Proof.Machine

open Sys2Proof.Statement

section Steps

variable {s t u v w : State} {d e c p : Dom} {r x y : Ctrl} {place : DomState × Nat} {plan : Fin 4} {withheld : Bool}

/-! ### Events that are none of a controller -/

/-- Two records differ in nothing that the demand and parent changes rest on. -/
def Ctrl.Alike (x y : Ctrl) : Prop :=
  y = { x with timer := y.timer, divisor := y.divisor, pins := y.pins, pgood := y.pgood, lossPending := y.lossPending }

theorem Ctrl.Alike.settled (h : x.Alike y) : y.Settled withheld ↔ x.Settled withheld := by
  unfold Ctrl.Alike at h; rw [h]; rfl
theorem Ctrl.Alike.reckoned (h : x.Alike y) : y.Reckoned ↔ x.Reckoned := by unfold Ctrl.Alike at h; rw [h]; rfl
theorem Ctrl.Alike.setup (h : x.Alike y) : y.setup = x.setup := by unfold Ctrl.Alike at h; rw [h]
theorem Ctrl.Alike.state (h : x.Alike y) : y.state = x.state := by unfold Ctrl.Alike at h; rw [h]
theorem Ctrl.Alike.counts (h : x.Alike y) : y.counts = x.counts := by unfold Ctrl.Alike at h; rw [h]
theorem Ctrl.Alike.derivedDemand (h : x.Alike y) : y.derivedDemand = x.derivedDemand := by
  unfold Ctrl.Alike at h; rw [h]
theorem Ctrl.Alike.parentPending (h : x.Alike y) : y.parentPending = x.parentPending := by
  unfold Ctrl.Alike at h; rw [h]

/-- A permission rests on the states and the setups alone. -/
theorem State.permits_alike (setup : ∀ e, (t.ctrl e).setup = (s.ctrl e).setup)
    (state : ∀ e, (t.ctrl e).state = (s.ctrl e).state) (e : Dom) : t.permits e = s.permits e := by
  unfold State.permits
  simp only [setup, state]

theorem Tended.alike (h : Tended s) (alike : ∀ e, (s.ctrl e).Alike (t.ctrl e)) : Tended t := by
  have setup (e : Dom) := (alike e).setup
  refine ⟨settledLaw_iff.2 fun e => ?_, ⟨fun p => ?_, fun e => (alike e).reckoned.2 (h.derived.2 e)⟩, fun e => ?_⟩
  · rw [(alike e).settled, State.permits_alike setup (fun e => (alike e).state), (alike e).parentPending]
    exact settledLaw_iff.1 h.settled e
  · rw [(alike p).derivedDemand, State.derivedFrom_congr setup (fun e => (alike e).counts)]
    exact h.derived.1 p
  · unfold State.parent
    rw [setup]
    exact h.rooted e

theorem Tended.congr (h : Tended s) (ctrls : t.ctrls = s.ctrls) : Tended t := by
  refine h.alike fun e => ?_
  unfold State.ctrl
  rw [ctrls]
  rfl

theorem Tended.judged (h : Tended s) : Tended s.judgeRest := h.congr (by rw [State.judgeRest_frame])

/-- One record written over an alike one. -/
theorem Tended.written (h : Tended s) (other : ∀ e, e ≠ d → u.ctrl e = s.ctrl e) (own : (s.ctrl d).Alike (u.ctrl d)) :
    Tended u := by
  refine h.alike fun e => ?_
  by_cases here : e = d
  · exact here ▸ own
  · rw [other e here]; rfl

theorem Tended.divide (h : Tended s) (k : Nat) : Tended (s.divide d k) := by
  have divided := State.divide_becomes (s := s) (d := d) k rfl
  exact h.written (d := d) (fun e other => by rw [divided.ctrl, if_neg other]) (by rw [divided.here]; rfl)

theorem Tended.setPgood (h : Tended s) (high : Bool) : Tended (s.setPgood d high) :=
  h.written (d := d) (fun e other => by rw [State.setPgood_ctrl, if_neg other])
    (by rw [State.setPgood_ctrl, if_pos rfl]; rfl)

theorem Tended.setLoss (h : Tended s) (waits : Bool) : Tended (s.setLoss d waits) :=
  h.written (d := d) (fun e other => by rw [State.setLoss_ctrl, if_neg other])
    (by rw [State.setLoss_ctrl, if_pos rfl]; rfl)

/-! ### DOMAIN.SETUP (R93) -/

/-- The derived demand of a domain rests on the counted children and their needs. -/
theorem State.derivedFrom_of_counted
    (same : ∀ c, ((t.ctrl c).setup.parent = some p ∧ (t.ctrl c).counts = true)
      ↔ ((s.ctrl c).setup.parent = some p ∧ (s.ctrl c).counts = true))
    (need : ∀ c, (s.ctrl c).setup.parent = some p → (s.ctrl c).counts = true →
      (t.ctrl c).setup.need = (s.ctrl c).setup.need) :
    t.derivedFrom p = s.derivedFrom p := by
  unfold State.derivedFrom
  refine List.foldl_ext _ _ _ fun m c _ => ?_
  by_cases counted : (s.ctrl c).setup.parent = some p ∧ (s.ctrl c).counts = true
  · rw [if_pos counted, if_pos ((same c).2 counted), need c counted.1 counted.2]
  · rw [if_neg counted, if_neg (mt (same c).1 counted)]

/-- The record of a domain with its setup written is counted no longer. -/
theorem State.resetup_derivedFrom {z : Setup}
    (away : ¬ ((s.ctrl d).counts = true ∧ (s.ctrl d).setup.parent = some p)) :
    (s.modCtrl d (fun r => { r with setup := z, counts := false })).derivedFrom p = s.derivedFrom p := by
  refine State.derivedFrom_of_counted (fun c => ?_) fun c child counted => ?_
  · rw [State.modCtrl_ctrl]
    split
    · next here => subst here; simpa using fun parent counted => away ⟨counted, parent⟩
    · rfl
  · rw [State.modCtrl_ctrl]
    split
    · next here => subst here; exact absurd ⟨counted, child⟩ away
    · rfl

theorem State.recompute_ctrl (p e : Dom) (s : State) :
    (s.recompute p).ctrl e = if e = p then (s.ctrl p).hand (s.ctrl p).leaseDemand (s.derivedFrom p) else s.ctrl e :=
  State.modCtrl_ctrl ..

theorem State.recompute_derivedFrom (p q : Dom) (s : State) : (s.recompute q).derivedFrom p = s.derivedFrom p := by
  refine State.derivedFrom_congr (fun e => (s.recompute_told q e).setup) (fun e => ?_) p
  rw [State.recompute_ctrl]
  split
  · next here => rw [here]; rfl
  · rfl

/-- The setup of a domain in OFF written, and its old parent told where the domain was counted (R93, R98). -/
theorem State.putSetup_eq (d : Dom) (z : Setup) (s : State) :
    s.putSetup d z
      = if (s.ctrl d).counts = true then
          match (s.ctrl d).setup.parent with
          | some p => (s.modCtrl d (fun r => { r with setup := z, counts := false })).recompute p
          | none => s.modCtrl d (fun r => { r with setup := z, counts := false })
        else s.modCtrl d (fun r => { r with setup := z, counts := false }) := by
  unfold State.putSetup
  cases (s.ctrl d).counts <;> cases (s.ctrl d).setup.parent <;> rfl

theorem State.putSetup_told (d : Dom) (z : Setup) (s : State) (e : Dom) :
    ((s.modCtrl d (fun r => { r with setup := z, counts := false })).ctrl e).Told ((s.putSetup d z).ctrl e) := by
  rcases s.putSetup_written d z with written | ⟨p, written⟩
  · rw [written]; exact .refl _
  · rw [written]; exact State.recompute_told ..

theorem State.putSetup_counts (d : Dom) (z : Setup) (s : State) (e : Dom) :
    ((s.putSetup d z).ctrl e).counts
      = ((s.modCtrl d (fun r => { r with setup := z, counts := false })).ctrl e).counts := by
  rcases s.putSetup_written d z with written | ⟨p, written⟩
  · rw [written]
  · rw [written, State.recompute_ctrl]
    split
    · next here => rw [here]; rfl
    · rfl

theorem State.putSetup_derived (derived : ∀ p, (s.ctrl p).derivedDemand = s.derivedFrom p) (z : Setup) (p : Dom) :
    ((s.putSetup d z).ctrl p).derivedDemand = (s.putSetup d z).derivedFrom p := by
  have stands (p : Dom) : ((s.modCtrl d (fun r => { r with setup := z, counts := false })).ctrl p).derivedDemand
      = s.derivedFrom p := by
    rw [State.modCtrl_ctrl, ← derived]
    split
    · next here => rw [here]
    · rfl
  rw [State.putSetup_eq]
  split
  · next counted =>
    cases parent : (s.ctrl d).setup.parent with
    | none =>
      dsimp only
      rw [stands, State.resetup_derivedFrom fun both => by rw [parent] at both; cases both.2]
    | some q =>
      dsimp only
      rw [State.recompute_derivedFrom, State.recompute_ctrl]
      split
      · next here => rw [here]; exact Ctrl.hand_derived ..
      · next other =>
        rw [stands, State.resetup_derivedFrom fun both => ?_]
        rw [parent] at both
        exact other (Option.some.inj both.2).symm
  · next uncounted => rw [stands, State.resetup_derivedFrom fun both => uncounted both.1]

theorem counted_off {r : Ctrl} (off : r.state = .off) (idle : r.demand = none) : r.counted = false := by
  unfold Ctrl.counted
  rw [off, idle]
  rfl

/-- DOMAIN.SETUP loses no event: a domain in OFF without demand is counted toward no parent (R93, R97). -/
theorem Tended.setup {z : Setup} (h : Tended s) (off : (s.ctrl d).state = .off) :
    SettledLaw (s.putSetup d z) ∧ DerivedLaw (s.putSetup d z) := by
  have told := s.putSetup_told d z
  have settled := settledLaw_iff.1 h.settled
  have here : (s.modCtrl d (fun r => { r with setup := z, counts := false })).ctrl d
      = { s.ctrl d with setup := z, counts := false } := by rw [State.modCtrl_ctrl, if_pos rfl]
  have other (e : Dom) (other : e ≠ d) :
      (s.modCtrl d (fun r => { r with setup := z, counts := false })).ctrl e = s.ctrl e := by
    rw [State.modCtrl_ctrl, if_neg other]
  have state (e : Dom) : ((s.putSetup d z).ctrl e).state = (s.ctrl e).state := by
    rw [(told e).state]
    by_cases same : e = d
    · rw [same, here]
    · rw [other e same]
  refine ⟨settledLaw_iff.2 fun e => ?_, State.putSetup_derived h.derived.1 z, fun e => ?_⟩
  · by_cases same : e = d
    · subst same
      refine (told e).settled (barred := !s.permits e || (s.ctrl e).parentPending) ?_ id |>.imp_right fun fits => ?_
      · rw [here]; exact settled e
      · rwa [fits_away (by rw [state, off]; nofun)] at fits
    · refine (told e).settled (barred := !s.permits e || (s.ctrl e).parentPending) ?_ fun withheld => ?_
      · rw [other e same]; exact settled e
      · have permits : (s.putSetup d z).permits e = s.permits e := by
          unfold State.permits
          rw [(told e).setup, other e same]
          simp only [state]
        rw [permits]
        simp only [Bool.or_eq_true] at withheld ⊢
        exact withheld.imp_right fun called => (told e).called (by rw [other e same]; exact called)
  · refine (told e).reckoned (s.putSetup_counts d z e) ?_
    by_cases same : e = d
    · subst same
      rw [here]
      refine (settled e).imp_right fun idle => ?_
      rw [off] at idle
      exact (counted_off off (of_decide_eq_true idle)).symm
    · rw [other e same]
      exact h.derived.2 e

/-! ### The hand-over at the end of a take (R18, R98) -/

theorem Ctrl.leaseHanded_reckoned (h : r.Reckoned) (lease : Reach) : (r.leaseHanded lease).Reckoned := by
  unfold Ctrl.leaseHanded
  split
  · exact h
  · exact .inr rfl

theorem State.handOn_stands (s : State) (still : s.tableDemand e = (s.ctrl e).leaseDemand) :
    (s.handOn.ctrl e).counts = (s.ctrl e).counts := by
  have same : (s.ctrl e).leaseHanded (s.tableDemand e) = s.ctrl e := if_pos still
  rw [State.handOn_ctrl, same]
  split <;> rfl

theorem State.handOn_derived (derived : ∀ p, (s.ctrl p).derivedDemand = s.derivedFrom p) (p : Dom) :
    (s.handOn.ctrl p).derivedDemand = s.handOn.derivedFrom p := by
  by_cases moved : ∃ c, (s.ctrl c).setup.parent = some p ∧ s.tableDemand c ≠ (s.ctrl c).leaseDemand
  · rw [State.handOn_ctrl, if_pos moved]
    exact Ctrl.hand_derived ..
  · have stands : s.handOn.derivedFrom p = s.derivedFrom p := by
      refine State.derivedFrom_children (fun e => (s.handOn_told e).setup) fun c child => s.handOn_stands ?_
      exact not_not.1 fun moves => moved ⟨c, child, moves⟩
    rw [State.handOn_ctrl, if_neg moved, stands, ← derived, Ctrl.leaseHanded_eq]

/-- A take loses no event: what moves a demand leaves a demand change, and the parents count anew (R18, R76, R98). -/
theorem State.handOn_tends (settled : SettledLaw s) (derived : DerivedLaw s) :
    SettledLaw s.handOn ∧ DerivedLaw s.handOn := by
  refine ⟨settledLaw_iff.2 fun e => ?_, State.handOn_derived derived.1, fun e => ?_⟩
  · refine (s.handOn_told e).settled (settledLaw_iff.1 settled e) fun withheld => ?_
    rw [State.permits_alike (fun e => (s.handOn_told e).setup) (fun e => (s.handOn_told e).state)]
    simp only [Bool.or_eq_true] at withheld ⊢
    exact withheld.imp_right (s.handOn_told e).called
  · have counted := Ctrl.leaseHanded_reckoned (derived.2 e) (s.tableDemand e)
    change Ctrl.Reckoned _
    rw [State.handOn_ctrl]
    split
    · exact (Ctrl.hand_told ..).reckoned rfl counted
    · exact counted

/-! ### Events of a controller (R76) -/

/-- An event takes up a mark of its domain; the laws of the others stand. -/
theorem Tended.taking (h : Tended s) (other : ∀ e, e ≠ d → u.ctrl e = s.ctrl e)
    (state : (u.ctrl d).state = (s.ctrl d).state) (setup : (u.ctrl d).setup = (s.ctrl d).setup)
    (counts : (u.ctrl d).counts = (s.ctrl d).counts) (derived : (u.ctrl d).derivedDemand = (s.ctrl d).derivedDemand) :
    Tending d u := by
  have alike {α : Type} (f : Ctrl → α) (own : f (u.ctrl d) = f (s.ctrl d)) (e : Dom) : f (u.ctrl e) = f (s.ctrl e) := by
    by_cases here : e = d
    · rw [here, own]
    · rw [other e here]
  have setups := alike Ctrl.setup setup
  refine ⟨fun e away => ?_, fun p => ?_, fun e away => by rw [other e away]; exact h.derived.2 e, fun e => ?_⟩
  · rw [State.permits_alike setups (alike Ctrl.state state), other e away]
    exact settledLaw_iff.1 h.settled e
  · rw [alike Ctrl.derivedDemand derived, State.derivedFrom_congr setups (alike Ctrl.counts counts)]
    exact h.derived.1 p
  · unfold State.parent
    rw [setups]
    exact h.rooted e

/-- A domain that stays stands as before (R80). -/
theorem Tended.stays (h : Tended s) (d : Dom) :
    (s.ctrl d).demandPending = true
      ∨ fits (s.ctrl d).state (s.ctrl d).demand (!s.heldPermits d || (s.ctrl d).parentPending) = true := by
  refine (settledLaw_iff.1 h.settled d).imp_right fun stands => ?_
  by_cases held : (s.ctrl d).state = .held
  · rwa [← State.permits_held held]
  · rwa [fits_away held] at stands

theorem fits_barred {st : DomState} {m : Reach} {barred called : Bool} (h : fits st m barred = true) :
    fits st m (barred || called) = true := fits_mono h fun barred => by rw [barred, Bool.true_or]

theorem Tended.demandChange (h : Tended s) (output : OutputLaw s) :
    Tended ((s.modCtrl d (fun r => { r with demandPending := false })).event d (State.demandStep d)) := by
  have here : (s.modCtrl d (fun r => { r with demandPending := false })).ctrl d
      = { s.ctrl d with demandPending := false } := by
    rw [State.modCtrl_ctrl, if_pos rfl]
  have other (e : Dom) (other : e ≠ d) :
      (s.modCtrl d (fun r => { r with demandPending := false })).ctrl e = s.ctrl e := by
    rw [State.modCtrl_ctrl, if_neg other]
  have tending : Tending d (s.modCtrl d (fun r => { r with demandPending := false })) := by
    refine h.taking other ?_ ?_ ?_ ?_ <;> rw [here]
  have sound : OutputLaw (s.modCtrl d (fun r => { r with demandPending := false })) := fun e => by
    by_cases same : e = d
    · rw [same, here]; exact output d
    · rw [other e same]; exact output e
  exact (State.event_tends (State.demandStep_comes rfl (sound d)) sound tending
    (.inr (fits_barred (demandPlace_fitted _ _)))).1

theorem Tended.parentChange (h : Tended s) (output : OutputLaw s) :
    Tended ((s.modCtrl d (fun r => { r with parentPending := false })).event d (State.parentStep d)) := by
  have here : (s.modCtrl d (fun r => { r with parentPending := false })).ctrl d
      = { s.ctrl d with parentPending := false } := by
    rw [State.modCtrl_ctrl, if_pos rfl]
  have other (e : Dom) (other : e ≠ d) :
      (s.modCtrl d (fun r => { r with parentPending := false })).ctrl e = s.ctrl e := by
    rw [State.modCtrl_ctrl, if_neg other]
  have tending : Tending d (s.modCtrl d (fun r => { r with parentPending := false })) := by
    refine h.taking other ?_ ?_ ?_ ?_ <;> rw [here]
  have sound : OutputLaw (s.modCtrl d (fun r => { r with parentPending := false })) := fun e => by
    by_cases same : e = d
    · rw [same, here]; exact output d
    · rw [other e same]; exact output e
  refine (State.event_tends (State.parentStep_comes rfl (sound d)) sound tending ?_).1
  rw [here]
  unfold parentPlace
  split
  · exact .inr (fits_barred (heldPlace_fitted _ _))
  · next away =>
    refine (settledLaw_iff.1 h.settled d).imp_right fun stands => ?_
    rwa [fits_away away] at stands

theorem Tended.present (h : Tended s) (output : OutputLaw s) (unlost : (s.ctrl d).lossPending = false) :
    Tended ((s.setPgood d true).event d (State.pgoodStep d)) := by
  have risen : Tended (s.setPgood d true) := h.setPgood true
  have here : (s.setPgood d true).ctrl d = { s.ctrl d with pgood := true } := by rw [State.setPgood_ctrl, if_pos rfl]
  have sound : OutputLaw (s.setPgood d true) := fun e => by
    rw [State.setPgood_ctrl]
    split
    · obtain ⟨pins, cold, timer, bound, setup, divisor, -⟩ := ctrlSound_iff.1 (output d)
      exact ctrlSound_iff.2 ⟨pins, cold, timer, bound, setup, divisor, by simp [unlost]⟩
    · exact output e
  refine (State.event_tends (State.pgoodStep_comes rfl (sound d) (by rw [here])) sound (risen.tending d) ?_).1
  unfold presentPlace
  split
  · exact .inr (fits_barred (heldPlace_fitted _ _))
  · exact risen.stays d

theorem Tended.loss (h : Tended s) (output : OutputLaw s) :
    Tended (((s.setPgood d false).setLoss d false).event d (State.lossStep d)) := by
  have fallen : Tended ((s.setPgood d false).setLoss d false) := (h.setPgood false).setLoss false
  have sound : OutputLaw ((s.setPgood d false).setLoss d false) := fun e => by
    rw [State.setLoss_ctrl, State.setPgood_ctrl, State.setPgood_ctrl, if_pos rfl]
    split
    · obtain ⟨pins, cold, timer, bound, setup, divisor, -⟩ := ctrlSound_iff.1 (output d)
      exact ctrlSound_iff.2 ⟨pins, cold, timer, bound, setup, divisor, rfl⟩
    · exact output e
  exact (State.event_tends (State.lossStep_comes rfl (sound d)) sound (fallen.tending d) (fallen.stays d)).1

theorem Tended.clear (h : Tended s) (output : OutputLaw s) (faulted : (s.ctrl d).state = .fault) :
    Tended (s.event d (State.toDischarge d)) :=
  (State.event_tends (.inr (State.clear_lands rfl (output d) faulted)) output (h.tending d) (.inr rfl)).1

/-! ### The tick (R77) -/

theorem Tended.endTimer (h : Tended s) (output : OutputLaw s) (d : Dom) :
    Tended (s.endTimer d) ∧ OutputLaw (s.endTimer d) := by
  unfold State.endTimer
  split
  · next ends =>
    have settled := (settledLaw_iff.1 h.settled d).imp_right fun stood =>
      fits_barred (called := (s.ctrl d).parentPending) (endPlace_fitted stood ends.1 (s.heldPermits d))
    obtain ⟨tended, sound⟩ := State.event_tends (State.endStep_comes rfl (output d)) output (h.tending d) settled
    exact ⟨tended, sound (endPlace_fits (output d) _)⟩
  · exact ⟨h, output⟩

theorem Tended.endTimers (h : Tended s) (output : OutputLaw s) (order : List Dom) : Tended (s.endTimers order) := by
  induction order generalizing s with
  | nil => exact h
  | cons d order ih =>
    obtain ⟨tended, output⟩ := h.endTimer output d
    exact ih tended output

theorem Tended.tick (h : Tended s) (output : OutputLaw s) (order : List Dom) : Tended (s.wholeTick order) := by
  have counted : Tended s.countTick := h.alike fun e => by rw [State.countTick_ctrl]; rfl
  have sound : OutputLaw s.countTick := fun e => by rw [State.countTick_ctrl]; exact ctrlSound_ticked (output e)
  have ends := counted.endTimers sound order
  refine ends.congr (Vec.ext fun e => ?_)
  exact State.wholeTick_ctrl ..

/-! ### The steps of RESET_N -/

theorem State.derivedFrom_none (uncounted : ∀ c, (s.ctrl c).counts = false) (p : Dom) : s.derivedFrom p = none := by
  rw [State.derivedFrom_greatest]
  rcases greatest_attained (counts := fun c => (s.ctrl c).setup.parent = some p ∧ (s.ctrl c).counts = true)
    (level := fun c => (s.ctrl c).setup.need) (List.finRange 8) none with none_counts | ⟨c, -, ⟨-, counted⟩, -⟩
  · exact none_counts
  · rw [uncounted] at counted; cases counted

theorem State.blank_tends (s : State) : SettledLaw s.blank ∧ DerivedLaw s.blank := by
  have ctrl (e : Dom) : s.blank.ctrl e = Ctrl.initial e (s.ctrl e).pgood := Vec.get_ofFn _ e
  refine ⟨settledLaw_iff.2 fun e => .inr ?_, fun p => ?_, fun e => .inr ?_⟩
  · rw [ctrl]; rfl
  · rw [State.derivedFrom_none fun c => by rw [ctrl]; rfl, ctrl]; rfl
  · rw [ctrl]; rfl

theorem fed_demand (pgood called : Bool) : (fed plan d pgood called).demand = planReach plan d := planReach_max plan d

/-- A domain that a plan powers stands where its demand puts it (R78 to R81). -/
theorem risen_settled {up : Bool} (pgood called : Bool) (powered : up = decide (planReach plan d ≠ none))
    (barred : planReach plan d ≠ none → (!decide ((Config.defaultTree d).1 = none)) = true → withheld = true) :
    (risen plan d pgood up called).Settled withheld := by
  refine .inr ?_
  rw [risen_demand]
  by_cases led : planReach plan d = none
  · subst powered
    rw [decide_eq_false (not_not.2 led), led]
    rfl
  · have up_true : up = true := powered.trans (decide_eq_true led)
    subst up_true
    have fitted := powerPlace_fitted (fed plan d pgood called) (decide ((Config.defaultTree d).1 = none))
    rw [fed_demand] at fitted
    exact fits_mono fitted (barred led)

theorem State.start_tends (plan : Fin 4) (s : State) (quiet : s.changes = []) :
    SettledLaw (State.start plan s) ∧ DerivedLaw (State.start plan s) := by
  have posed := State.start_posed plan s quiet
  refine ⟨settledLaw_iff.2 fun e => ?_, fun p => ?_, fun e => ?_⟩
  · rw [posed.ctrl]
    refine risen_settled _ _ rfl fun led barred => ?_
    rw [posed.permits led, barred, Bool.true_or]
  · rw [State.derivedFrom_plan (plan := plan) (fun c => by rw [posed.ctrl]; rfl) fun c _ => by rw [posed.ctrl]; rfl,
      posed.ctrl]
    rfl
  · refine .inr ?_
    rw [posed.ctrl]
    by_cases led : planReach plan e = none
    · rw [decide_eq_false (not_not.2 led), risen_off]
      exact (fed_counted (plan := plan) (d := e) (pgood := (s.ctrl e).pgood)).symm
    · rw [decide_eq_true led, risen_counted led]
      exact decide_eq_true led

/-! ### Every step -/

theorem Steers.tends (h : Steers s u) (law : Tended s) (output : OutputLaw s) : SettledLaw u ∧ DerivedLaw u := by
  have both {v : State} (tended : Tended v) : SettledLaw v ∧ DerivedLaw v := ⟨tended.settled, tended.derived⟩
  cases h with
  | still still => exact both (law.congr still.ctrls)
  | setup _ off => exact law.setup off
  | divide => exact both (law.divide _)
  | clear faulted => exact both (law.clear output faulted)
  | demand => exact both (law.demandChange output)
  | parent => exact both (law.parentChange output)
  | input => exact both (law.setPgood _)
  | present unlost => exact both (law.present output unlost)
  | fall => exact both ((law.setPgood false).setLoss true)
  | loss => exact both (law.loss output)
  | tick => exact both (law.tick output _)

theorem tends_congr (law : SettledLaw s ∧ DerivedLaw s) (ctrls : t.ctrls = s.ctrls) : SettledLaw t ∧ DerivedLaw t := by
  obtain ⟨settled, derived, counted⟩ := law
  have ctrl (e : Dom) : t.ctrl e = s.ctrl e := by unfold State.ctrl; rw [ctrls]
  refine ⟨settledLaw_iff.2 fun e => ?_, fun p => ?_, fun e => ?_⟩
  · rw [ctrl, State.permits_congr ctrl]; exact settledLaw_iff.1 settled e
  · rw [ctrl, State.derivedFrom_congr (s := s) (t := t) (fun e => by rw [ctrl]) (fun e => by rw [ctrl])]
    exact derived p
  · rw [ctrl]; exact counted e

theorem Steered.tends (h : Steered s t) (law : Tended s) (output : OutputLaw s) : SettledLaw t ∧ DerivedLaw t := by
  have begun : Tended s.begin := law.congr rfl
  have judged {u : State} (law : SettledLaw u ∧ DerivedLaw u) : SettledLaw u.judgeRest ∧ DerivedLaw u.judgeRest :=
    tends_congr law (by rw [State.judgeRest_frame])
  cases h with
  | idle => exact ⟨law.settled, law.derived⟩
  | event steers => exact judged (steers.tends begun output)
  | taken steers ctrls =>
    obtain ⟨settled, derived⟩ := tends_congr (steers.tends begun output) ctrls
    exact judged (State.handOn_tends settled derived)
  | reset => exact judged (State.blank_tends _)
  | start => exact judged (State.start_tends _ _ rfl)

/-- Settles O58: an event leaves its domain where its demand puts it and tells the children whose need it has met
(`State.event_tends`); what moves a demand leaves a demand change, and the count of a domain is taken anew with each. -/
theorem stepsLoseNoEvent : Obligations.StepsLoseNoEvent := by
  intro s t forest output _ settled derived e
  have law : Tended s := ⟨settled, derived, ForestLaw.parent_some_ne forest⟩
  rcases step_exec e with rfl | ⟨c, rest, e⟩
  · exact ⟨settled, derived⟩
  · exact (exec_steered c e).tends (law.congr rfl) output

end Steps

end Sys2Proof.Machine

/-! ## A forced stop reads no client but those of the homes it stops -/

namespace Sys2Proof.Machine

open Sys2Proof.Statement

section Untouched

variable {d e p : Dom} {o : Client} {m n : ClientRec} {before : Reach}

/-! ### One client's record written before or after -/

theorem State.setClient_swap {c o : Client} (other : o ≠ c) (s : State) :
    (s.setClient c m).setClient o n = (s.setClient o n).setClient c m := by
  have swap : (s.clients.set c m).set o n = (s.clients.set o n).set c m := Vec.ext fun i => by
    simp only [Vec.get_set]
    by_cases first : i = c
    · subst first; simp [Ne.symm other]
    · simp [first]
  unfold State.setClient
  dsimp only
  rw [swap]

theorem State.setClient_back (s : State) (o : Client) : s.setClient o (s.client o) = s := by
  unfold State.setClient State.client
  rw [Vec.set_get]

variable (o m) (s : State)

theorem State.setClient_drive (p : Pins) (x : PinChange) :
    (s.setClient o m).drive d p x = (s.drive d p x).setClient o m := by
  unfold State.drive; rw [State.setClient_ctrl]; split <;> rfl

theorem State.setClient_driveIso (v : Bool) : (s.setClient o m).driveIso d v = (s.driveIso d v).setClient o m :=
  s.setClient_drive ..
theorem State.setClient_driveDclk (v : Dclk) : (s.setClient o m).driveDclk d v = (s.driveDclk d v).setClient o m :=
  s.setClient_drive ..
theorem State.setClient_driveDrst (v : Bool) : (s.setClient o m).driveDrst d v = (s.driveDrst d v).setClient o m :=
  s.setClient_drive ..
theorem State.setClient_drivePen (v : Bool) : (s.setClient o m).drivePen d v = (s.drivePen d v).setClient o m :=
  s.setClient_drive ..

theorem State.setClient_enter (st : DomState) (k : Nat) :
    (s.setClient o m).enter d st k = (s.enter d st k).setClient o m := rfl

theorem State.setClient_setCold (v : Bool) : (s.setClient o m).setCold d v = (s.setCold d v).setClient o m := rfl

theorem State.setClient_toDischarge : (s.setClient o m).toDischarge d = (s.toDischarge d).setClient o m := by
  unfold State.toDischarge
  rw [State.setClient_ctrl, State.setClient_enter, State.setClient_setCold, State.setClient_driveDrst,
    State.setClient_drivePen]

theorem State.setClient_toLingerHold : (s.setClient o m).toLingerHold d = (s.toLingerHold d).setClient o m := by
  unfold State.toLingerHold
  dsimp only
  rw [State.setClient_ctrl, State.setClient_enter, State.setClient_ctrl, State.setClient_toDischarge]
  split <;> rfl

theorem State.setClient_notify (c : Client) (k : NoticeKind) (sub : Subject) (det : Detail) :
    (s.setClient o m).notify c k sub det = (s.notify c k sub det).setClient o m := by
  have put (es : List Entry) (overrun : Bool) :
      (s.setClient o m).putQueue c es overrun = (s.putQueue c es overrun).setClient o m := by
    unfold State.putQueue; dsimp only; rw [State.setClient_queue]; split <;> rfl
  unfold State.notify
  dsimp only
  rw [State.setClient_queue]
  split
  · exact put ..
  · split <;> exact put ..

theorem State.setClient_appendAll (ns : List Note) :
    appendAll (s.setClient o m) ns = (appendAll s ns).setClient o m := by
  induction ns generalizing s with
  | nil => rfl
  | cons note ns ih =>
    change appendAll ((s.setClient o m).notify _ _ _ _) ns = (appendAll (s.notify _ _ _ _) ns).setClient o m
    rw [State.setClient_notify, ih]

theorem State.setClient_halted : (s.setClient o m).halted d = (s.halted d).setClient o m := by
  have told (t : State) (before : Reach) :
      (t.setClient o m).tellUngranted d before = (t.tellUngranted d before).setClient o m := by
    refine (State.tellOwners (s := t.setClient o m) _ .ungranted (fun _ => .level d .hold) _).trans ?_
    rw [State.setClient_appendAll]
    exact congrArg (·.setClient o m) (State.tellOwners (s := t) _ .ungranted (fun _ => .level d .hold) t).symm
  unfold State.halted
  dsimp only
  rw [State.setClient_ctrl, State.setClient_driveIso, State.setClient_driveDclk, State.setClient_enter, told]
  generalize (((s.driveIso d true).driveDclk d .stopped).enter d .held 0).tellUngranted d _ = u
  rw [State.setClient_toLingerHold]
  change (if u.demand d = none then _ else _) = _
  split <;> rfl

theorem State.setClient_handTree : (s.setClient o m).handTree d before = (s.handTree d before).setClient o m := by
  have told : (s.setClient o m).tellChildren d before = (s.tellChildren d before).setClient o m := by
    unfold State.tellChildren
    generalize List.finRange 8 = cs
    induction cs generalizing s with
    | nil => rfl
    | cons c cs ih =>
      have one : (s.setClient o m).tellChild d before c = (s.tellChild d before c).setClient o m := by
        by_cases crossed : (s.ctrl c).setup.parent = some d
            ∧ crosses (s.ctrl c).setup.need before (effLevel (s.ctrl d).state) = true
        · have told : s.tellChild d before c = s.modCtrl c ({ · with parentPending := true }) := if_pos crossed
          rw [told]
          exact if_pos crossed
        · have untold : s.tellChild d before c = s := if_neg crossed
          rw [untold]
          exact if_neg crossed
      rw [List.foldl_cons, List.foldl_cons, one, ih]
  have parent (t : State) : (t.setClient o m).recomputeParent d = (t.recomputeParent d).setClient o m := by
    unfold State.recomputeParent
    rw [State.setClient_ctrl]
    cases (t.ctrl d).setup.parent with
    | none => rfl
    | some p =>
      have derived : (t.setClient o m).derivedFrom p = t.derivedFrom p := rfl
      dsimp only
      unfold State.recompute
      rw [derived]
      rfl
  unfold State.handTree
  rw [told]
  have counted (t : State) : (t.setClient o m).recount d = (t.recount d).setClient o m := rfl
  rw [counted, parent]

theorem State.setClient_syncHome (away : homeOf o ≠ d) :
    (s.setClient o m).syncHome d = (s.syncHome d).setClient o m := by
  unfold State.syncHome
  cases home : homeClient d with
  | none => rfl
  | some c =>
    have other : c ≠ o := fun same => away (by rw [← same]; exact homeOf_of_homeClient home)
    have tied : (s.setClient o m).staysTied c = s.staysTied c := by
      unfold State.staysTied; rw [State.setClient_client_ne _ _ _ other]; rfl
    have drive (t : State) (v : Bool) : (t.setClient o m).driveCrst c v = (t.driveCrst c v).setClient o m := by
      unfold State.driveCrst
      rw [State.setClient_client_ne _ _ _ other]
      split
      · rfl
      · rw [State.setClient_swap other]; rfl
    change (s.setClient o m).syncCrst c = (s.syncCrst c).setClient o m
    unfold State.syncCrst
    rw [tied, State.setClient_client_ne _ _ _ other]
    dsimp only
    rw [State.setClient_swap other]
    exact drive _ _

theorem State.setClient_stopOne (away : homeOf o ≠ d) : (s.setClient o m).stopOne d = (s.stopOne d).setClient o m := by
  rw [State.stopOne_eq, State.stopOne_eq, State.handNeighbours_eq, State.handNeighbours_eq, State.setClient_ctrl,
    State.setClient_halted, State.setClient_handTree, State.setClient_syncHome _ _ _ away]

/-! ### The stops below a domain -/

/-- A stop starts no domain. -/
theorem State.stopOne_started (sound : ctrlSound (s.ctrl d) = true) (started : isStarted (s.ctrl d).state = true)
    (idle : isStarted (s.ctrl e).state = false) : isStarted ((s.stopOne d).ctrl e).state = false := by
  have halted := State.stops_halted sound started
  rw [State.stopOne_eq, State.handNeighbours_state, halted.ctrl, replaced]
  split
  · exact stopped_started _
  · exact idle

/-- The stops below a domain neither read nor write the client of a home that is not started. -/
theorem State.setClient_stopChildren (output : OutputLaw s) (idle : isStarted (s.ctrl (homeOf o)).state = false)
    (k : Nat) (p : Dom) : (s.setClient o m).stopChildren k p = (s.stopChildren k p).setClient o m := by
  induction k generalizing p s with
  | zero => rfl
  | succ k ih =>
    rw [State.stopChildren_succ, State.stopChildren_succ]
    generalize List.finRange 8 = cs
    induction cs generalizing s with
    | nil => rfl
    | cons c cs ihcs =>
      have permits : (s.setClient o m).permits c = s.permits c := State.permits_congr (fun _ => rfl) c
      rw [List.foldl_cons, List.foldl_cons]
      unfold State.stopChild
      rw [State.setClient_ctrl, permits]
      split
      · next cut =>
        obtain ⟨-, started, -⟩ := cut
        have away : homeOf o ≠ c := fun home => by rw [home, started] at idle; cases idle
        have rested : OutputLaw (s.stopOne c) ∧ isStarted ((s.stopOne c).ctrl (homeOf o)).state = false :=
          ⟨State.stopOne_sound output started, State.stopOne_started _ (output c) started idle⟩
        have after := State.stopChildren_keeps
          (P := fun t => OutputLaw t ∧ isStarted (t.ctrl (homeOf o)).state = false)
          (fun t _ e ⟨output, idle⟩ _ started _ =>
            ⟨State.stopOne_sound output started, State.stopOne_started _ (output e) started idle⟩) k c _ rested
        rw [State.setClient_stopOne _ _ _ away, ih _ rested.1 rested.2]
        exact ihcs _ after.1 after.2
      · exact ihcs _ output idle

end Untouched

end Sys2Proof.Machine

/-! ## An event of a controller whose mark has been taken up -/

namespace Sys2Proof.Machine

open Sys2Proof.Statement

section Acts

variable {s t u v w : State} {d e : Dom} {o : Client} {r x : Ctrl} {m : ClientRec} {place : DomState × Nat} {lost : Nat}
  {cause : FaultCause} {before : Reach} {L : List Dom}

/-- What an event of domain `d` finds when its own mark has been taken up: the outputs, the tree and the derived
demands stand as they should, and so does CRST_N of every client whose home is another domain. -/
structure Acting (d : Dom) (s : State) : Prop where
  output : OutputLaw s
  forest : ForestLaw s
  derived : ∀ p, (s.ctrl p).derivedDemand = s.derivedFrom p
  lined : ∀ o, homeOf o ≠ d → (s.client o).Lined (s.ctrl (homeOf o))

/-! ### CRST_N at the end of the event (R140, R141) -/

theorem ClientRec.Lined.follow_self (h : m.Lined x) : follow m x.cold = m := by
  have tied : (m.tied && !x.cold) = m.tied := by
    cases tied : m.tied with
    | false => rfl
    | true => rw [(h.tied tied).1]; rfl
  unfold follow
  rw [tied, ← h.crst]

/-- A tie over an event that waits on ends with the warm home alone. -/
theorem follow_stillTied (waits : (s.client o).tied = true → (t.ctrl (homeOf o)).eventWaits = true) :
    follow (s.client o) (t.ctrl (homeOf o)).cold
      = { s.client o with
          crst := (t.ctrl (homeOf o)).cold || decide (0 < (s.client o).pulse) || stillTied s t o
          tied := stillTied s t o } := by
  have tied : stillTied s t o = ((s.client o).tied && !(t.ctrl (homeOf o)).cold) := by
    unfold stillTied
    cases tied : (s.client o).tied with
    | false => rfl
    | true =>
      have event := waits tied
      simp only [Ctrl.eventWaits, Bool.or_eq_true, or_assoc] at event
      simp [event]
  rw [tied]
  rfl

/-- The end of an event makes the client of its home follow it, whether or not an event waits on there. -/
theorem State.handNeighbours_follows (result : w.handNeighbours d before = t)
    (own : ∀ o, homeOf o = d → w.client o = (s.client o).losing lost)
    (away : ∀ o, homeOf o ≠ d → w.client o = follow (s.client o) (t.ctrl (homeOf o)).cold)
    (waits : ∀ o, homeOf o ≠ d → (s.client o).tied = true → (t.ctrl (homeOf o)).eventWaits = true) :
    ClientsFollow s t d lost := by
  intro o
  subst result
  have tree : (w.handTree d before).client o = w.client o := (State.handTree_control before).1.client o
  by_cases home : homeOf o = d
  · have tied : (w.handTree d before).staysTied o = stillTied s (w.handNeighbours d before) o := by
      unfold State.staysTied stillTied Ctrl.eventWaits
      rw [tree, own o home, State.handNeighbours_eq, State.syncHome_ctrl]
      cases ((w.handTree d before).ctrl (homeOf o)).cold <;> simp [ClientRec.losing, Bool.or_assoc]
    rw [← tied, if_pos home, State.handNeighbours_eq, State.syncHome_own home, State.syncHome_ctrl, tree, own o home,
      home]
    rfl
  · rw [State.handNeighbours_eq, State.syncHome_away home, tree, away o home, ← State.handNeighbours_eq,
      follow_stillTied (waits o home), if_neg home]
    rfl

/-! ### An event that leaves its domain in a state -/

theorem handed_waits {y : Ctrl} (stands : (s.ctrl e).eventWaits = y.eventWaits) (h : t.ctrl e = handed u v e y)
    (event : (s.ctrl e).eventWaits = true) : (t.ctrl e).eventWaits = true := by
  rw [h]
  exact handed_eventWaits (stands ▸ event)

theorem Reached.acts (h : Reached s w d r lost) (acting : Acting d s) (kept : (s.ctrl d).Kept r) :
    Moved s (w.handNeighbours d (effLevel (s.ctrl d).state)) d r lost := by
  have derived := acting.derived
  have holds (e : Dom) : (replaced s.ctrl d r e).derivedDemand = s.derivedFrom e := by
    unfold replaced
    split
    · next here => rw [here, kept.derivedDemand, derived]
    · exact derived e
  have hands : Hands s (replaced s.ctrl d { r with counts := r.counted })
      (w.handNeighbours d (effLevel (s.ctrl d).state)) := by
    refine (Hands.refl derived).step (fun e => ?_) kept.setup kept.counts rfl (fun _ _ => rfl)
      (fun p parent => acting.forest.parent_ne parent) ?_ fun p _ => .inl (derived p).symm
    · rw [h.ctrl, handed_self (holds e)]
    · rw [← derived, ← kept.derivedDemand]
  have frame := h.frame.trans (State.handNeighbours_frame d (effLevel (s.ctrl d).state) w)
  have queues := State.handNeighbours_queues (s := w) (d := d) (effLevel (s.ctrl d).state)
  have changes := State.handNeighbours_changes (s := w) (d := d) (effLevel (s.ctrl d).state)
  generalize result : w.handNeighbours d (effLevel (s.ctrl d).state) = t at *
  have other (e : Dom) (other : e ≠ d) : t.ctrl e = handed s t e (s.ctrl e) := by rw [hands, replaced, if_neg other]
  have state : effLevel (t.ctrl d).state = effLevel (w.ctrl d).state := by
    rw [hands.state, h.here, replaced, if_pos rfl]
  refine ⟨hands, State.handNeighbours_follows result (fun o home => ?_) (fun o away => ?_) (fun o away tied => ?_),
    ?_, ?_,
    frame.eventFrame⟩
  · rw [h.client, if_pos home]
  · rw [h.client, if_neg away, other _ away, handed_cold, (acting.lined o away).follow_self]
    rfl
  · exact handed_waits rfl (other _ away) ((acting.lined o away).tied tied).2
  · rw [queues, h.queues, grantNotes_congr state]
  · have crst : crstChanges w t = crstChanges s t := crstChanges_congr (fun c => by rw [h.client]; rfl) fun _ => rfl
    rw [changes, h.changes, grantNotes_congr state, crst]

/-! ### An event that takes its domain into FAULT -/

theorem Acting.fault_stoppable (acting : Acting d s) (tree : TreeLaw s) (h : Downed s v d (s.ctrl d) cause)
    (untied : ∀ o, homeOf o = d → (w.client o).tied = false) (same : ∀ o, homeOf o ≠ d → w.client o = v.client o)
    (ctrls : w.ctrls = v.ctrls) : Stoppable w := by
  have ctrl (e : Dom) : w.ctrl e = v.ctrl e := by unfold State.ctrl; rw [ctrls]
  have setup (e : Dom) : (w.ctrl e).setup = (s.ctrl e).setup := by rw [ctrl, h.setup rfl]
  refine ⟨fun e => ?_, acting.forest.congr setup, fun p => ?_, fun c p parent started => ?_, fun o tied => ?_⟩
  · rw [ctrl]
    by_cases here : e = d
    · rw [here, h.here]; exact ctrlSound_faultRecord (acting.output d)
    · rw [h.other here]; exact acting.output e
  · rw [State.derivedFrom_congr (s := v) (fun e => by rw [ctrl]) (fun e => by rw [ctrl]), h.derivedFrom rfl,
      ← acting.derived,
      ctrl]
    by_cases here : p = d
    · rw [here, h.here]; rfl
    · rw [h.other here]
  · unfold State.parent at parent
    rw [ctrl] at parent started ⊢
    by_cases here : c = d
    · rw [here, h.here] at started; cases started
    · rw [h.other here] at parent started ⊢
      exact (childHeld_started tree parent started).1
  · by_cases home : homeOf o = d
    · rw [untied o home] at tied; cases tied
    · rw [same o home, h.client] at tied
      rw [ctrl, h.other home]
      exact ((acting.lined o home).tied tied).2

/-- Stops that leave a client alone are made alike whatever its record. -/
theorem Stops.of_setClient (h : Stops (v.setClient o m) L (u.setClient o m)) (same : u.client o = v.client o)
    (away : homeOf o ∉ L) : Stops v L u where
  frame := show u = _ from congrArg (fun x : State => { x with clients := u.clients }) h.frame
  counted := h.counted
  hands := h.hands
  client c := by
    by_cases here : c = o
    · rw [here, if_neg away, same]
    · have stopped := h.client c
      rw [State.setClient_client_ne _ _ _ here, State.setClient_client_ne _ _ _ here] at stopped
      exact stopped
  queues := h.queues.trans (appendAll_queues_congr _ rfl)
  changes := h.changes

/-- The stops below a domain that provides no level. -/
theorem Stoppable.stops_below (base : Stoppable v) (down : effLevel (v.ctrl d).state = none) :
    Stops v (Statement.stopsBelow v 8 d true) (v.stopChildren 8 d) := by
  have cut : v.Cut [] d true := by
    intro c _ _
    have own : v.halts [] d = v.ctrl d := if_neg List.not_mem_nil
    have level : effLevel (v.halts [] d).state = none := own ▸ down
    have pos := reachRank_some_pos (v.ctrl c).setup.need
    rw [level]
    simp only [true_or, not_true_eq_false, iff_false, not_le]
    exact pos
  exact (Stops.none base).below base 8 cut (p := d) (off := true) nofun

/-- The stops below a domain in FAULT, whose client they leave alone. -/
theorem Acting.fault_stops (acting : Acting d s) (tree : TreeLaw s) (h : Downed s v d (s.ctrl d) cause) :
    Stops v (Statement.stopsBelow s 8 d true) (v.stopChildren 8 d) := by
  have down : effLevel (v.ctrl d).state = none := by rw [h.here]; rfl
  rw [← h.stopsBelow rfl acting.forest 8 .refl]
  cases home : homeClient d with
  | none =>
    have away (o : Client) : homeOf o ≠ d := fun here => by rw [← here, homeClient_homeOf] at home; cases home
    exact (acting.fault_stoppable tree h (fun o here => absurd here (away o)) (fun _ _ => rfl) rfl).stops_below down
  | some c =>
    obtain rfl := homeOf_of_homeClient home
    have output : OutputLaw v := fun e => by
      by_cases here : e = homeOf c
      · rw [here, h.here]; exact ctrlSound_faultRecord (acting.output _)
      · rw [h.other here]; exact acting.output e
    have idle : isStarted (v.ctrl (homeOf c)).state = false := by rw [h.here]; rfl
    have swaps (m : ClientRec) := v.setClient_stopChildren c m output idle 8 (homeOf c)
    have stands : (v.stopChildren 8 (homeOf c)).client c = v.client c := by
      have back := swaps (v.client c)
      rw [State.setClient_back] at back
      rw [back, State.setClient_client_self]
    have base : Stoppable (v.setClient c { v.client c with tied := false }) := by
      refine acting.fault_stoppable tree h (fun o here => ?_) (fun o away => ?_) rfl
      · rw [homeOf_inj here, State.setClient_client_self]
      · exact State.setClient_client_ne _ _ _ fun same => away (congrArg homeOf same)
    have stops := base.stops_below down
    rw [swaps] at stops
    refine Stops.of_setClient (m := { v.client c with tied := false }) ?_ stands fun he => ?_
    · exact stops
    · rw [h.stopsBelow rfl acting.forest 8 .refl] at he
      exact ne_of_mem_stopsBelow acting.forest he rfl

/-- What the end of an event that took its domain into FAULT hands on (R98, R99). -/
theorem Acting.fault_hands (acting : Acting d s) (h : Downed s v d (s.ctrl d) cause) (stops : Stops v L u)
    (absent : d ∉ L) :
    Hands s
      (replaced (v.halts L) d { faultRecord (s.ctrl d) cause with counts := (faultRecord (s.ctrl d) cause).counted })
      ((u.raiseHomeLost d).handNeighbours d (effLevel (s.ctrl d).state)) := by
  have own : v.halts L d = faultRecord (s.ctrl d) cause := (if_neg absent).trans h.here
  have derived (p : Dom) : (v.ctrl p).derivedDemand = v.derivedFrom p := by
    rw [h.derivedFrom rfl, ← acting.derived]
    by_cases here : p = d
    · rw [here, h.here]; rfl
    · rw [h.other here]
  refine stops.hands.step (fun e => ?_) (by rw [own]) (by rw [own]) (by rw [own, h.here])
    (fun p other => by rw [h.other other]) (fun p up => ?_) rfl fun p _ => .inr ⟨?_, nofun⟩
  · have record : replaced (v.halts L) d (faultRecord (s.ctrl d) cause) e = v.halts L e := by
      unfold replaced
      split
      · next here => rw [here, own]
      · rfl
    rw [State.raiseHomeLost_ctrl, record]
    exact stops.hands e
  · rw [v.halts_setup, h.setup rfl] at up
    exact acting.forest.parent_ne up
  · rw [v.halts_derived, derived]
    exact State.derivedFrom_le stops.setup fun e _ => stops.counts_le e

/-- The end of an event that took domain `d` into FAULT (R113 to R115). -/
theorem Acting.faulted (acting : Acting d s) (tree : TreeLaw s) (h : Downed s v d (s.ctrl d) cause) :
    Faulted s (((v.stopChildren 8 d).raiseHomeLost d).handNeighbours d (effLevel (s.ctrl d).state)) d (s.ctrl d) cause
    := by
  have stops := acting.fault_stops tree h
  have absent : d ∉ Statement.stopsBelow s 8 d true := fun he => ne_of_mem_stopsBelow acting.forest he rfl
  have alike (e : Dom) (he : e ∈ Statement.stopsBelow s 8 d true) : v.ctrl e = s.ctrl e :=
    h.other (ne_of_mem_stopsBelow acting.forest he)
  have notes : stopNotes s d = (Statement.stopsBelow s 8 d true).flatMap (ungrantNotes v) := by
    refine List.flatMap_congr fun e he => ?_
    exact (ungrantNotes_congr (by rw [h.frame]) (by rw [alike e he])).symm
  unfold Faulted
  generalize Statement.stopsBelow s 8 d true = L at stops absent alike notes ⊢
  generalize v.stopChildren 8 d = u at stops ⊢
  have lost := State.raiseHomeLost_clients d u
  have hands := acting.fault_hands h stops absent
  have frame : OnlyDomains s ((u.raiseHomeLost d).handNeighbours d (effLevel (s.ctrl d).state)) :=
    h.frame.trans (stops.frame.trans ((State.raiseHomeLost_frame d u).trans (State.handNeighbours_frame ..)))
  have queues := State.handNeighbours_queues (s := u.raiseHomeLost d) (d := d) (effLevel (s.ctrl d).state)
  have changes := State.handNeighbours_changes (s := u.raiseHomeLost d) (d := d) (effLevel (s.ctrl d).state)
  generalize result : (u.raiseHomeLost d).handNeighbours d (effLevel (s.ctrl d).state) = t at *
  have other (e : Dom) (away : e ≠ d) : t.ctrl e = handed s t e (if e ∈ L then stopped (s.ctrl e) else s.ctrl e) := by
    rw [hands e, replaced, if_neg away, State.halts, h.other away]
  have cold (e : Dom) (away : e ≠ d) : (t.ctrl e).cold = (u.ctrl e).cold := by
    rw [other e away, stops.hands e, handed_cold, handed_cold, State.halts, h.other away]
  have follows : ClientsFollow s t d 1 := by
    refine State.handNeighbours_follows result (fun o home => ?_) (fun o away => ?_) fun o away tied => ?_
    · rw [State.raiseHomeLost_client, if_pos home, stops.client, if_neg (home ▸ absent), h.client]
    · rw [State.raiseHomeLost_client, if_neg away, stops.client, cold _ away, h.client]
      split
      · rfl
      · next fresh =>
        rw [stops.untouched fresh, handed_cold, h.other away, (acting.lined o away).follow_self]
        rfl
    · refine handed_waits ?_ (other _ away) ((acting.lined o away).tied tied).2
      split <;> rfl
  obtain ⟨ys, record, outputs⟩ := stops.changes
  rw [h.changes] at record
  have total : t.changes = faultChanges s d (s.ctrl d) cause ++ (ys ++ crstChanges (u.raiseHomeLost d) t) := by
    rw [changes, lost, ← List.append_assoc]
    exact congrArg (· ++ _) record
  refine ⟨fun e => ?_, follows, ?_, ⟨_, total.symm⟩, ?_, frame.eventFrame⟩
  · by_cases here : e = d
    · rw [here, hands d, replaced, if_pos rfl, if_pos rfl]
      rfl
    · rw [if_neg here, other e here]
  · rw [queues, lost, notes, appendAll_append]
    exact stops.queues.trans (appendAll_queues_congr _ h.queues)
  · rw [total, List.drop_left]
    refine (outputsOf_append ..).trans ?_
    rw [outputs, outputsOf_none fun x hx => outputOf_crstChanges hx, List.append_nil]
    refine List.flatMap_congr fun e he => ?_
    have away : e ≠ d := fun same => absent (same ▸ he)
    rw [alike e he, other e away, if_pos he]
    rfl

/-! ### A whole event (R76, R111) -/

/-- A controller event whose passages end in a fault (R113 to R115). -/
theorem Acting.event_faulted {passage : State → State} (acting : Acting d s) (tree : TreeLaw s)
    (fails : Fails d (s.ctrl d) cause s (passage s)) : Faulted s (s.event d passage) d (s.ctrl d) cause := by
  obtain ⟨v, down, result⟩ := fails.downed
  have stops := acting.fault_stops tree down
  have level : effLevel ((passage s).ctrl d).state = none := by
    rw [result, State.raiseHomeLost_ctrl, stops.untouched fun he => ne_of_mem_stopsBelow acting.forest he rfl,
      handed_state,
      down.here]
    rfl
  have silent : (passage s).grant d (effLevel (s.ctrl d).state) = passage s := by
    unfold State.grant State.tellGranted
    simp only [level]
    rfl
  rw [State.event_eq, silent, result]
  exact acting.faulted tree down

/-- A controller event whose passages reach a place without a rise to HOLD. -/
theorem Acting.event_moved {passage : State → State} (acting : Acting d s)
    (goes : Goes d (s.ctrl d) place s (passage s))
    (up : effLevel (placed (s.ctrl d) place).state = some .hold → effLevel (s.ctrl d).state ≠ none) :
    Moved s (s.event d passage) d (placed (s.ctrl d) place) 0 := by
  rw [State.event_eq]
  exact (Becomes.reached goes up).acts acting (placed_kept ..)

end Acts

end Sys2Proof.Machine

/-! ## The events of a controller (chapter 5) -/

namespace Sys2Proof.Machine

open Sys2Proof.Statement

section Marks

variable {s t u v w : State} {d e : Dom} {o : Client} {r x y : Ctrl} {place : DomState × Nat} {lost : Nat}
  {cause : FaultCause}

/-! ### A mark or an input moved -/

/-- Two records differ in what waits and in PGOOD alone. -/
def Ctrl.Marked (x y : Ctrl) : Prop :=
  y = { x with
    demandPending := y.demandPending, parentPending := y.parentPending, pgood := y.pgood, lossPending := y.lossPending }

theorem Ctrl.Marked.setup (h : x.Marked y) : y.setup = x.setup := by unfold Ctrl.Marked at h; rw [h]
theorem Ctrl.Marked.state (h : x.Marked y) : y.state = x.state := by unfold Ctrl.Marked at h; rw [h]
theorem Ctrl.Marked.pins (h : x.Marked y) : y.pins = x.pins := by unfold Ctrl.Marked at h; rw [h]
theorem Ctrl.Marked.counts (h : x.Marked y) : y.counts = x.counts := by unfold Ctrl.Marked at h; rw [h]
theorem Ctrl.Marked.derivedDemand (h : x.Marked y) : y.derivedDemand = x.derivedDemand := by
  unfold Ctrl.Marked at h; rw [h]

theorem Ctrl.Marked.sound (h : x.Marked y) (sound : ctrlSound x = true) (unlost : (y.pgood && y.lossPending) = false) :
    ctrlSound y = true := by
  obtain ⟨pins, cold, timer, bound, setup, divisor, -⟩ := ctrlSound_iff.1 sound
  rw [ctrlSound_iff]
  unfold Ctrl.Marked at h
  rw [h]
  exact ⟨pins, cold, timer, bound, setup, divisor, unlost⟩

/-- An event of domain `d` has taken its mark or its input, and nothing has followed yet. -/
structure Taken (d : Dom) (s u : State) : Prop where
  other : ∀ e, e ≠ d → u.ctrl e = s.ctrl e
  own : (s.ctrl d).Marked (u.ctrl d)
  frame : u = { s with ctrls := u.ctrls }

theorem State.modCtrl_taken {f : Ctrl → Ctrl} (marked : (s.ctrl d).Marked (f (s.ctrl d))) :
    Taken d s (s.modCtrl d f) where
  other e other := by rw [State.modCtrl_ctrl, if_neg other]
  own := by rw [State.modCtrl_ctrl, if_pos rfl]; exact marked
  frame := rfl

theorem Taken.marked (h : Taken d s u) (e : Dom) : (s.ctrl e).Marked (u.ctrl e) := by
  by_cases here : e = d
  · rw [here]; exact h.own
  · rw [h.other e here]; rfl

theorem Taken.setup (h : Taken d s u) (e : Dom) : (u.ctrl e).setup = (s.ctrl e).setup := (h.marked e).setup
theorem Taken.state (h : Taken d s u) (e : Dom) : (u.ctrl e).state = (s.ctrl e).state := (h.marked e).state
theorem Taken.pins (h : Taken d s u) (e : Dom) : (u.ctrl e).pins = (s.ctrl e).pins := (h.marked e).pins
theorem Taken.counts (h : Taken d s u) (e : Dom) : (u.ctrl e).counts = (s.ctrl e).counts := (h.marked e).counts

theorem Taken.client (h : Taken d s u) (o : Client) : u.client o = s.client o := by rw [h.frame]; rfl
theorem Taken.slots (h : Taken d s u) : u.slots = s.slots := by rw [h.frame]

theorem Taken.permits (h : Taken d s u) (e : Dom) : u.permits e = s.permits e := State.permits_alike h.setup h.state e

theorem Taken.acting (h : Taken d s u) (output : OutputLaw s)
    (unlost : ((u.ctrl d).pgood && (u.ctrl d).lossPending) = false)
    (reset : ResetLineLaw s) (forest : ForestLaw s) (derived : DerivedLaw s) : Acting d u where
  output e := by
    by_cases here : e = d
    · rw [here]; exact h.own.sound (output d) unlost
    · rw [h.other e here]; exact output e
  forest := forest.congr h.setup
  derived p := by rw [State.derivedFrom_congr h.setup h.counts, (h.marked p).derivedDemand, derived.1]
  lined o away := by
    rw [h.client, h.other _ away]
    exact (resetLineLaw_iff.1 reset o).1

theorem Taken.tree (h : Taken d s u) (tree : TreeLaw s) : TreeLaw u := by
  intro c
  have held := tree c
  unfold childHeld at held ⊢
  rw [h.setup, h.state, h.counts]
  cases parent : (s.ctrl c).setup.parent with
  | none => rfl
  | some p =>
    rw [parent] at held
    dsimp only at held ⊢
    rw [h.state, (h.marked p).derivedDemand]
    exact held

/-! ### What an event gives, told from before its mark was taken -/

theorem Taken.handed (h : Taken d s u) (e : Dom) (x : Ctrl) : handed u t e x = handed s t e x := by
  have same : called u t x = called s t x := by
    unfold called
    simp only [h.state]
  rw [handed_eq, handed_eq, same]

theorem Taken.follows (h : Taken d s u) (follows : ClientsFollow u t d lost) : ClientsFollow s t d lost := by
  intro o
  have tied : stillTied u t o = stillTied s t o := by unfold stillTied; rw [h.client]
  rw [follows o, tied, h.client]

theorem Taken.heard (h : Taken d s u) (xs : List PinChange) (ns : List Note) :
    HeardAlike (appendAll { s with changes := s.changes ++ xs } ns)
      (appendAll { u with changes := u.changes ++ xs } ns) :=
  (HeardAlike.of_eq (by rw [h.frame]) (by rw [h.frame])).appendAll ns

theorem Taken.queues (h : Taken d s u) (ns : List Note) : (appendAll u ns).queues = (appendAll s ns).queues :=
  appendAll_queues_congr ns (by rw [h.frame])

theorem Taken.eventFrame (h : Taken d s u) (frame : EventFrame u t) : EventFrame s t := by
  unfold EventFrame at frame ⊢
  rw [frame, h.frame]

theorem Taken.moved (h : Taken d s u) (moved : Moved u t d r lost) : Moved s t d r lost := by
  obtain ⟨ctrl, follows, queues, changes, frame⟩ := moved
  have level : effLevel (u.ctrl d).state = effLevel (s.ctrl d).state := by rw [h.state]
  have notes : grantNotes u t d = grantNotes s t d := grantNotes_start h.slots level
  have granted : grantedAt u d r = grantedAt s d r := by unfold grantedAt; rw [level]
  have crst : crstChanges u t = crstChanges s t := crstChanges_congr (fun c => by rw [h.client]) fun _ => rfl
  refine ⟨fun e => ?_, h.follows follows, ?_, ?_, h.eventFrame frame⟩
  · rw [ctrl, h.handed]
    by_cases here : e = d
    · rw [if_pos here, if_pos here]
    · rw [if_neg here, if_neg here, h.other e here]
  · rw [queues, notes, h.queues]
  · rw [changes, notes, granted, crst, h.pins, (h.heard ..).changes]

theorem stopsBelow_congr (setup : ∀ e, (t.ctrl e).setup = (s.ctrl e).setup)
    (state : ∀ e, (t.ctrl e).state = (s.ctrl e).state)
    (n : Nat) (p : Dom) (off : Bool) : Statement.stopsBelow t n p off = Statement.stopsBelow s n p off := by
  induction n generalizing p off with
  | zero => rfl
  | succ n ih =>
    have cuts : t.cutsOff p off = s.cutsOff p off := funext fun c => by unfold State.cutsOff; rw [setup, state]
    rw [stopsBelow_succ, stopsBelow_succ]
    unfold State.stopsAmong
    rw [cuts]
    exact List.flatMap_congr fun c _ => by rw [ih]

theorem Taken.faulted (h : Taken d s u) (faulted : Faulted u t d r cause) : Faulted s t d r cause := by
  obtain ⟨ctrl, follows, queues, first, rest, frame⟩ := faulted
  have below : Statement.stopsBelow u 8 d true = Statement.stopsBelow s 8 d true :=
    stopsBelow_congr h.setup h.state 8 d true
  have supervisor : u.supervisor = s.supervisor := by rw [h.frame]
  have notes : faultNotes u d cause = faultNotes s d cause := by
    unfold faultNotes
    rw [supervisor, State.leases_congr h.slots, toOwners_congr h.slots]
  have stops : stopNotes u d = stopNotes s d := by
    unfold stopNotes
    rw [below]
    exact List.flatMap_congr fun e _ => ungrantNotes_congr h.slots (by rw [h.state])
  have changes : faultChanges u d r cause = faultChanges s d r cause := by
    unfold faultChanges
    rw [notes, List.append_assoc, List.append_assoc]
    exact (h.heard _ _).changes
  rw [changes] at first rest
  refine ⟨fun e => ?_, h.follows follows, ?_, first, ?_, h.eventFrame frame⟩
  · rw [ctrl, h.handed, below]
    by_cases here : e = d
    · rw [if_pos here, if_pos here]
    · rw [if_neg here, if_neg here, h.other e here]
  · rw [queues, notes, stops, h.queues]
  · rw [rest, below]
    exact List.flatMap_congr fun e _ => by rw [h.pins]

/-! ### The judgement of Rest Control after an event (R133) -/

theorem Moved.judged (moved : Moved s t d r lost) : Moved s t.judgeRest d r lost := by
  obtain ⟨ctrl, follows, queues, changes, frame⟩ := moved
  rw [State.judgeRest_frame]
  exact ⟨ctrl, follows, queues, changes, congrArg (fun x : State => { x with rest := t.judgeRest.rest }) frame⟩

theorem Faulted.judged (faulted : Faulted s t d r cause) : Faulted s t.judgeRest d r cause := by
  obtain ⟨ctrl, follows, queues, first, rest, frame⟩ := faulted
  rw [State.judgeRest_frame]
  exact ⟨ctrl, follows, queues, first, rest, congrArg (fun x : State => { x with rest := t.judgeRest.rest }) frame⟩

theorem State.judgeRest_judged (rest : t.rest = s.rest) : RestJudged s t.judgeRest := by
  unfold RestJudged
  rw [State.judgeRest_rest, rest]

theorem OnlyDomains.rest (h : OnlyDomains s t) : t.rest = s.rest := by unfold OnlyDomains at h; rw [h]

/-! ### DEMAND_CHANGE and PARENT_CHANGE (R76, R99) -/

/-- An event has taken domain `d`, with the record `r`, to a place, or into a RECHECK fault on the way. -/
def Led (s t : State) (d : Dom) (r : Ctrl) (place : DomState × Nat) : Prop :=
  if place.1 = .fault ∧ r.state ≠ .fault then Faulted s t d r .recheck else Moved s t d (placed r place) 0

theorem Taken.led (h : Taken d s u) (led : Led u t d r place) : Led s t.judgeRest d r place := by
  unfold Led at led ⊢
  split
  · next fails => rw [if_pos fails] at led; exact Faulted.judged (h.faulted led)
  · next whole => rw [if_neg whole] at led; exact Moved.judged (h.moved led)

/-- Passages that lead to a place make an event that does, where no domain rises to HOLD and none in FAULT leaves it. -/
theorem Acting.event_led {passage : State → State} (acting : Acting d s) (tree : TreeLaw s)
    (leads : Leads d (s.ctrl d) place s (passage s)) (whole : (s.ctrl d).state ≠ .fault)
    (up : effLevel place.1 = some .hold → effLevel (s.ctrl d).state ≠ none) :
    Led s (s.event d passage) d (s.ctrl d) place := by
  unfold Led
  split
  · next fails =>
    unfold Leads at leads
    rw [if_pos fails.1] at leads
    exact acting.event_faulted tree leads
  · next stays => exact acting.event_moved (leads.goes fun at_ => stays ⟨at_, whole⟩) up

/-- An event that makes no passage of its own (R80). -/
theorem Acting.event_stays {passage : State → State} (acting : Acting d s) (stays : passage s = s) :
    Moved s (s.event d passage) d (placed (s.ctrl d) ((s.ctrl d).state, (s.ctrl d).timer)) 0 :=
  acting.event_moved (stays.symm ▸ Goes.stands rfl (acting.output d)) fun hold none => by
    rw [show effLevel (s.ctrl d).state = some .hold from hold] at none; cases none

theorem ctrlSound_unlost (sound : ctrlSound r = true) : (r.pgood && r.lossPending) = false := by
  obtain ⟨-, -, -, -, -, -, unlost⟩ := ctrlSound_iff.1 sound
  exact unlost

theorem powerPlace_whole (permitted : Bool) : (powerPlace r permitted).1 ≠ .fault := by
  unfold powerPlace
  split
  · next present => exact heldPlace_present_whole present _
  · nofun

/-- No demand change takes a domain from a cold state up to HOLD at once, but a demand in OFF. -/
theorem demandPlace_rise (idle : r.state = .off → r.demand = none) (permitted : Bool)
    (hold : effLevel (demandPlace r permitted).1 = some .hold) : effLevel r.state ≠ none := by
  unfold demandPlace at hold
  cases state : r.state with
  | off => rw [state, idle state] at hold; cases hold
  | powering | discharge | fault => rw [state] at hold; cases hold
  | held | starting _ | slow | full | linger _ => nofun

/-- A demand change, with its mark taken (R78 to R86). -/
theorem Acting.demandChange (acting : Acting d s) (tree : TreeLaw s) :
    Led s (s.event d (State.demandStep d)) d (s.ctrl d) (demandPlace (s.ctrl d) (s.permits d)) := by
  have sound := acting.output d
  have irrefl := ForestLaw.parent_some_ne acting.forest d
  by_cases fault : (s.ctrl d).state = .fault
  · have place : demandPlace (s.ctrl d) (s.permits d) = ((s.ctrl d).state, (s.ctrl d).timer) := by
      unfold demandPlace; rw [fault]
    unfold Led
    rw [if_neg fun both => both.2 fault, place]
    exact acting.event_stays (by unfold State.demandStep; rw [fault])
  by_cases powers : (s.ctrl d).state = .off ∧ (s.ctrl d).demand ≠ none
  · obtain ⟨off, wanted⟩ := powers
    obtain ⟨pins, cold, -⟩ := ctrlSound_iff.1 sound
    rw [rowPins, off] at pins
    rw [coldSound, off] at cold
    obtain ⟨m, demand⟩ := Option.ne_none_iff_exists'.1 wanted
    have place : demandPlace (s.ctrl d) (s.permits d) = powerPlace (s.ctrl d) (s.permits d) := by
      unfold demandPlace; rw [off, demand]
    have step : s.demandStep d = s.toPowering d := by unfold State.demandStep State.demand; rw [off, demand]
    have reached := State.toPowering_reached rfl pins cold (by rw [off]; rfl) wanted irrefl
    unfold Led
    rw [place, if_neg fun both => powerPlace_whole _ both.1, State.event_eq, step]
    exact reached.acts acting (placed_kept ..)
  · have idle (off : (s.ctrl d).state = .off) : (s.ctrl d).demand = none :=
      by_contra fun wanted => powers ⟨off, wanted⟩
    have leads := State.demandStep_leads rfl sound fault idle
    rw [State.heldPermits_of_parent irrefl] at leads
    exact acting.event_led tree leads fault (demandPlace_rise idle _)

/-- A parent change, with its mark taken (R80, R99). -/
theorem Acting.parentChange (acting : Acting d s) (tree : TreeLaw s) :
    Led s (s.event d (State.parentStep d)) d (s.ctrl d) (parentPlace (s.ctrl d) (s.permits d)) := by
  unfold parentPlace
  split
  · next held =>
    have leads := State.parentStep_leads rfl held (acting.output d)
    rw [State.heldPermits_of_parent (ForestLaw.parent_some_ne acting.forest d)] at leads
    exact acting.event_led tree leads (by rw [held]; nofun) fun _ => by rw [held]; nofun
  · next away =>
    unfold Led
    rw [if_neg fun both => both.2 both.1]
    exact acting.event_stays (State.parentStep_stays away)

/-- The state in which a demand change acts. -/
theorem State.demandTaken (d : Dom) (s : State) :
    Taken d s (s.modCtrl d (fun r => { r with demandPending := false })) :=
  State.modCtrl_taken rfl

/-- The state in which a parent change acts. -/
theorem State.parentTaken (d : Dom) (s : State) :
    Taken d s (s.modCtrl d (fun r => { r with parentPending := false })) :=
  State.modCtrl_taken rfl

/-- Settles O27: with its mark taken up a domain in OFF with a demand is powered, and every other follows the table of
chapter 5, into a RECHECK fault where a settle time of 0 ends without PGOOD. -/
theorem demandChangeMovesTheController : Obligations.DemandChangeMovesTheController := by
  intro s d r running output reset forest tree derived at_ waits
  subst at_
  have exec_eq : exec (.demandChange d) s
      = s.occur (s.running && (s.ctrl d).demandPending) (fun t =>
          (t.modCtrl d (fun r => { r with demandPending := false })).event d (State.demandStep d)) := rfl
  have taken := State.demandTaken d s.begin
  have own : (s.begin.modCtrl d (fun r => { r with demandPending := false })).ctrl d
      = { s.ctrl d with demandPending := false } := by rw [State.modCtrl_ctrl, if_pos rfl]; rfl
  have unlost := ctrlSound_unlost (output d)
  have led := (taken.acting output (by rw [own]; exact unlost) reset forest derived).demandChange (taken.tree tree)
  rw [own, taken.permits] at led
  rw [running, waits] at exec_eq
  exact ⟨_, exec_eq.trans (State.occur_of rfl _ s), taken.led led,
    State.judgeRest_judged (State.event_frame d _ (State.demandStep_frame d) _).rest⟩

/-- Settles O28: a domain in HELD compares its demand as a demand change does; any other makes no passage. -/
theorem parentChangeStartsTheWaitingChild : Obligations.ParentChangeStartsTheWaitingChild := by
  intro s d r place reset_high output reset forest tree derived at_ waits place_eq
  subst at_ place_eq
  have exec_eq : exec (.parentChange d) s
      = s.occur (!s.resetLow && (s.ctrl d).parentPending) (fun t =>
          (t.modCtrl d (fun r => { r with parentPending := false })).event d (State.parentStep d)) := rfl
  have taken := State.parentTaken d s.begin
  have own : (s.begin.modCtrl d (fun r => { r with parentPending := false })).ctrl d
      = { s.ctrl d with parentPending := false } := by rw [State.modCtrl_ctrl, if_pos rfl]; rfl
  have unlost := ctrlSound_unlost (output d)
  have led := (taken.acting output (by rw [own]; exact unlost) reset forest derived).parentChange (taken.tree tree)
  rw [own, taken.permits] at led
  rw [reset_high, waits] at exec_eq
  exact ⟨_, exec_eq.trans (State.occur_of rfl _ s), taken.led led,
    State.judgeRest_judged (State.event_frame d _ (State.parentStep_frame d) _).rest⟩

end Marks

end Sys2Proof.Machine

/-! ## PGOOD that becomes present, and its loss (R79, R108 to R112) -/

namespace Sys2Proof.Machine

open Sys2Proof.Statement

section PowerGood

variable {s t u v w : State} {d e : Dom} {r : Ctrl} {place : DomState × Nat} {cause : FaultCause}

/-! ### The end of POWERING (R79, R80, R90) -/

/-- At a place that provides HOLD the outputs are those of HELD, the clock of a start aside (R87). -/
theorem placed_hold_row (hold : effLevel place.1 = some .hold) :
    { (placed r place).pins with dclk := .stopped } = r.heldRow := by
  obtain ⟨state, timer⟩ := place
  cases state with
  | off | powering | slow | full | discharge | fault => cases hold
  | held => rfl
  | starting run => cases run <;> rfl
  | linger l =>
    obtain rfl : l = .hold := Option.some.inj hold
    rfl

/-- POWERING left for HELD, GRANTED of HOLD in its place, and what follows. -/
theorem State.endPowering_reached (at_ : s.ctrl d = r) (low : effLevel r.state = none) (row : r.pins = r.heldRow)
    (present : r.pgood = true) (irrefl : r.setup.parent ≠ some d) :
    Reached s ((s.endPowering d).grant d (effLevel (s.ctrl d).state)) d (placed r (heldPlace r (s.permits d))) 0 := by
  have entered := State.enter_becomes .held 0 at_
  have permits := entered.permits_stand at_ rfl irrefl
  have whole := heldPlace_present_whole present (s.permits d)
  have held {u : State} (here : u.ctrl d = ((s.enter d .held 0).ctrl d)) (same : u.permits d = s.permits d) :
      Becomes d (placed r (heldPlace r (s.permits d)))
        (orderedChanges d r.pins (placed r (heldPlace r (s.permits d))).pins) u (u.heldCompare d) := by
    have leads := State.heldCompare_leads (here.trans entered.here) rfl rfl row
    rw [same] at leads
    exact leads.goes whole
  have risen := entered.trans (held rfl permits)
  rw [State.endPowering_eq]
  split
  · next hold =>
    have hold : effLevel (heldPlace r (s.permits d)).1 = some .hold := by
      rw [← hold]; exact (congrArg (fun x : Ctrl => effLevel x.state) risen.here).symm
    have outputs : grantedAt s d (placed r (heldPlace r (s.permits d))) = r.pins := by
      unfold grantedAt
      rw [at_, if_pos ⟨low, hold⟩, placed_hold_row hold, row]
    have told : (s.enter d .held 0).tellGranted d none
        = appendAll (s.enter d .held 0) (grantNotes s (s.enter d .held 0) d) := by
      rw [← State.tellGranted_notes entered.frame.slots, at_, low]
    rw [told]
    refine Becomes.reached_hold (entered.as rfl ?_) rfl ?_ hold
    · rw [outputs, at_, orderedChanges_same]
    · rw [outputs]
      exact held (appendAll_ctrl ..) ((State.permits_congr (appendAll_ctrl _ _) d).trans permits)
  · next above =>
    exact Becomes.reached (risen.as rfl (by rw [at_]; rfl)) fun hold => absurd (risen.here ▸ hold) above

/-- PGOOD present at a domain (R79, R108). -/
theorem Acting.pgoodPresent (acting : Acting d s) (present : (s.ctrl d).pgood = true) :
    Moved s (s.event d (State.pgoodStep d)) d (placed (s.ctrl d) (presentPlace (s.ctrl d) (s.permits d))) 0 := by
  unfold presentPlace
  split
  · next powering =>
    obtain ⟨pins, cold, -⟩ := ctrlSound_iff.1 (acting.output d)
    rw [rowPins, powering] at pins
    rw [coldSound, powering] at cold
    have cold : (s.ctrl d).cold = true := cold
    have step : s.pgoodStep d = s.endPowering d := by unfold State.pgoodStep; rw [if_pos powering]
    have reached := State.endPowering_reached rfl (by rw [powering]; rfl) (by rw [pins, Ctrl.heldRow, cold]) present
      (ForestLaw.parent_some_ne acting.forest d)
    rw [State.event_eq, step]
    exact reached.acts acting (placed_kept ..)
  · next away => exact acting.event_stays (by unfold State.pgoodStep; rw [if_neg away])

/-- Settles O29: POWERING ends in HELD, where the demand is compared after GRANTED of HOLD; any other state stays. -/
theorem powerGoodEndsTheRamp : Obligations.PowerGoodEndsTheRamp := by
  intro s d r place reset_high output reset forest derived at_ absent unlost place_eq
  subst at_ place_eq
  have exec_eq : exec (.pgoodPresent d) s
      = s.occur (!(s.ctrl d).pgood && !(s.ctrl d).lossPending) (fun t =>
          if (t.setPgood d true).resetLow then t.setPgood d true
          else (t.setPgood d true).event d (State.pgoodStep d)) := rfl
  have high : (s.begin.setPgood d true).resetLow ≠ true := by
    rw [show (s.begin.setPgood d true).resetLow = s.resetLow from rfl, reset_high]; nofun
  have taken : Taken d s.begin (s.begin.setPgood d true) := State.modCtrl_taken rfl
  have own : (s.begin.setPgood d true).ctrl d = { s.ctrl d with pgood := true } := by
    rw [State.setPgood_ctrl, if_pos rfl]; rfl
  have acting := taken.acting output (by rw [own]; simp [unlost]) reset forest derived
  have moved := acting.pgoodPresent (by rw [own])
  rw [own, taken.permits] at moved
  rw [absent, unlost] at exec_eq
  have stepped := exec_eq.trans (State.occur_of rfl _ s)
  rw [if_neg high] at stepped
  exact ⟨_, stepped, Moved.judged (taken.moved moved),
    State.judgeRest_judged (State.event_frame d _ (State.pgoodStep_frame d) _).rest⟩

/-! ### The loss of PGOOD (R108 to R112) -/

/-- The states in which a loss is a fault (R108). -/
theorem lossFaults_iff {monitor : Bool} {st : DomState} : lossFaults monitor st = true ↔
    st = .starting .slow ∨ st = .starting .full ∨ st = .slow ∨ st = .full ∨ st = .linger .slow ∨ st = .linger .full
      ∨ (monitor = true ∧ (st = .held ∨ st = .linger .hold)) := by
  cases st with
  | off | powering | held | slow | full | discharge | fault => simp [lossFaults]
  | starting run => cases run <;> simp [lossFaults]
  | linger l => cases l <;> simp [lossFaults]

/-- The outputs of a faulted domain are dropped first (R88). -/
theorem drop_prefix (fresh : s.changes = []) (stand : faultedFrom r cause = r.pins) (faulted : Faulted s t d r cause) :
    dropChanges d r.pins <+: t.changes := by
  obtain ⟨-, -, -, first, -⟩ := faulted
  refine List.IsPrefix.trans ?_ first
  unfold faultChanges
  rw [stand, fresh, orderedChanges_same]
  obtain ⟨xs, changes, -⟩ := appendAll_changes { s with changes := dropChanges d r.pins } (faultNotes s d cause)
  exact ⟨xs, changes.symm⟩

theorem faultedFrom_plain (plain : cause ≠ .recheck) : faultedFrom r cause = r.pins := by simp [faultedFrom, plain]

/-- A loss of PGOOD as its domain judges it (R108). -/
theorem Acting.pgoodLoss (acting : Acting d s) (tree : TreeLaw s) :
    if lossFaults (s.ctrl d).setup.monitor (s.ctrl d).state = true then
      Faulted s (s.event d (State.lossStep d)) d (s.ctrl d) .loss
    else Moved s (s.event d (State.lossStep d)) d (placed (s.ctrl d) ((s.ctrl d).state, (s.ctrl d).timer)) 0 := by
  split
  · next faults =>
    have step : s.lossStep d = s.toFault d .loss := by unfold State.lossStep; rw [if_pos faults]
    exact acting.event_faulted tree (step.symm ▸ State.toFault_fails rfl .loss nofun)
  · next stands => exact acting.event_stays (by unfold State.lossStep; rw [if_neg stands])

/-- The state in which a loss of PGOOD is judged. -/
theorem State.lossTaken (d : Dom) (s : State) : Taken d s ((s.setPgood d false).setLoss d false) where
  other e other := by rw [State.setLoss_ctrl, if_neg other, State.setPgood_ctrl, if_neg other]
  own := by rw [State.setLoss_ctrl, if_pos rfl, State.setPgood_ctrl, if_pos rfl]; rfl
  frame := rfl

theorem exec_pgoodLoss {ahead : Bool} (reset_high : s.resetLow = false) (losing : (s.ctrl d).losing ahead = true) :
    exec (.pgoodLoss { domain := d, ahead := ahead }) s
      = .next (if ahead = true then (s.begin.setPgood d false).setLoss d true
          else ((s.begin.setPgood d false).setLoss d false).event d (State.lossStep d)).judgeRest := by
  have exec_eq : exec (.pgoodLoss { domain := d, ahead := ahead }) s
      = s.occur ((s.ctrl d).losing ahead) (fun t =>
          if (t.setPgood d false).resetLow then t.setPgood d false
          else if ahead then (t.setPgood d false).setLoss d true
          else ((t.setPgood d false).setLoss d false).event d (State.lossStep d)) := rfl
  have high : (s.begin.setPgood d false).resetLow ≠ true := by
    rw [show (s.begin.setPgood d false).resetLow = s.resetLow from rfl, reset_high]; nofun
  rw [exec_eq, State.occur_of losing, if_neg high]

/-- A loss of PGOOD that is judged at once, or was waiting for it (R108, R110, R113). -/
theorem supplyLoss_judged (reset_high : s.resetLow = false) (output : OutputLaw s) (reset : ResetLineLaw s)
    (forest : ForestLaw s) (tree : TreeLaw s) (derived : DerivedLaw s) (at_ : s.ctrl d = r)
    (comes : r.pgood = true ∨ r.lossPending = true) :
    ∃ t, exec (.pgoodLoss { domain := d, ahead := false }) s = .next t
      ∧ (if lossFaults r.setup.monitor r.state = true then
          Faulted s.begin t d { r with pgood := false, lossPending := false } .loss ∧ dropChanges d r.pins <+: t.changes
        else Moved s.begin t d { r with pgood := false, lossPending := false } 0)
      ∧ RestJudged s t := by
  subst at_
  have losing : (s.ctrl d).losing false = true := by simpa [Ctrl.losing] using comes
  have taken := State.lossTaken d s.begin
  have own : ((s.begin.setPgood d false).setLoss d false).ctrl d
      = { s.ctrl d with pgood := false, lossPending := false } := by
    rw [State.setLoss_ctrl, if_pos rfl, State.setPgood_ctrl, if_pos rfl]; rfl
  have acting := taken.acting output (by rw [own]; rfl) reset forest derived
  have stays := placed_self (acting.output d)
  have happens := acting.pgoodLoss (taken.tree tree)
  rw [stays, own] at happens
  refine ⟨_, exec_pgoodLoss reset_high losing, ?_,
    State.judgeRest_judged (State.event_frame d _ (State.lossStep_frame d) _).rest⟩
  split
  · next faults =>
    rw [if_pos faults] at happens
    have faulted := Faulted.judged (taken.faulted happens)
    have first := drop_prefix rfl (faultedFrom_plain (cause := .loss) nofun) faulted
    exact ⟨faulted, first⟩
  · next stands =>
    rw [if_neg stands] at happens
    exact Moved.judged (taken.moved happens)

/-- A loss of PGOOD ahead of another event: the level falls, and the loss waits (R112). -/
theorem supplyLoss_waits (reset_high : s.resetLow = false) (at_ : s.ctrl d = r) (present : r.pgood = true) :
    ∃ t, exec (.pgoodLoss { domain := d, ahead := true }) s = .next t
      ∧ (∀ e, t.ctrl e = if e = d then { r with pgood := false, lossPending := true } else s.ctrl e)
      ∧ t = { s with ctrls := t.ctrls, rest := t.rest, changes := [] } ∧ RestJudged s t := by
  subst at_
  have losing : (s.ctrl d).losing true = true := by simp [Ctrl.losing, present]
  have judged := State.judgeRest_frame ((s.begin.setPgood d false).setLoss d true)
  refine ⟨_, exec_pgoodLoss reset_high losing, fun e => ?_, ?_, State.judgeRest_judged rfl⟩
  · rw [if_pos rfl, judged]
    change ((s.begin.setPgood d false).setLoss d true).ctrl e = _
    rw [State.setLoss_ctrl, State.setPgood_ctrl, State.setPgood_ctrl, if_pos rfl]
    split <;> rfl
  · rw [if_pos rfl, judged]
    rfl

end PowerGood

end Sys2Proof.Machine

/-! ## The ends of ramp, settle time, linger and discharge (R77, R82, R85, R86, R109) -/

namespace Sys2Proof.Machine

open Sys2Proof.Statement

section TickFrom

variable {s t u v w : State} {d e : Dom} {r : Ctrl} {run : Run} {l : Level} {place : DomState × Nat} {lost : Nat}
  {cause : FaultCause} {order ds : List Dom}

/-! ### A tick in any order (R45) -/

/-- A tick in an order is its counts, its timed steps and its pulses, and then Rest Control. -/
theorem State.wholeTick_pulses (order : List Dom) (s : State) :
    (s.wholeTick order).judgeRest
      = { (s.countTick.endTimers order).tickPulses with rest := (s.wholeTick order).judgeRest.rest } := by
  have delay : s.wholeTick order = { (s.countTick.endTimers order).tickPulses with rest := (s.wholeTick order).rest } :=
    State.endDelay_frame s (s.countTick.endTimers order).tickPulses
  generalize (s.countTick.endTimers order).tickPulses = v at delay ⊢
  rw [State.judgeRest_frame (s.wholeTick order), delay]

/-- The tick that makes the timed steps of `d` and of some others in their order: the step of `d`, and what is left. -/
theorem State.wholeTick_finished (laws : DomainLaws s) (d : Dom) (ds : List Dom) :
    TimerEnded s.begin.countTick (s.begin.countTick.endTimer d) d
      ∧ TickFinished ds s (s.begin.countTick.endTimer d) (s.begin.wholeTick (d :: ds)).judgeRest := by
  obtain ⟨ended, stepped⟩ := State.endTimer_ended (DomainLaws.ticked laws) d
  obtain ⟨made, laws⟩ := State.endTimers_made ds stepped
  have pulses := s.begin.wholeTick_pulses (d :: ds)
  have steps : s.begin.countTick.endTimers (d :: ds) = (s.begin.countTick.endTimer d).endTimers ds := rfl
  rw [steps] at pulses
  obtain ⟨client, changes⟩ := State.tickPulses_finished laws
  generalize (s.begin.countTick.endTimer d).endTimers ds = v at *
  have rest := (State.judgeRest_rest (s.begin.wholeTick (d :: ds)))
  rw [State.wholeTick_rest, ← State.restConditions_judged (s.begin.wholeTick (d :: ds))] at rest
  generalize (s.begin.wholeTick (d :: ds)).judgeRest = t at *
  have frame : v.tickPulses = { v with clients := v.tickPulses.clients, changes := v.tickPulses.changes } :=
    State.tickPulses_frame v
  have clients : t.clients = v.tickPulses.clients := by rw [pulses]
  have record : t.changes = v.tickPulses.changes := by rw [pulses]
  refine ⟨ended, v, made, fun c => ?_, record.trans changes, rest, ?_⟩
  · rw [← client c]
    unfold State.client
    rw [clients]
  · rw [frame] at pulses
    rw [clients, record]
    exact pulses

/-! ### The record of changes grows (R88) -/

theorem Moved.extends (moved : Moved s t d r lost) : s.changes <+: t.changes := by
  obtain ⟨-, -, -, changes, -⟩ := moved
  rw [changes]
  obtain ⟨xs, told, -⟩ := appendAll_changes
    { s with changes := s.changes ++ orderedChanges d (s.ctrl d).pins (grantedAt s d r) } (grantNotes s t d)
  rw [told]
  simp only [List.append_assoc]
  exact List.prefix_append ..

theorem Faulted.extends (faulted : Faulted s t d r cause) : s.changes <+: t.changes := by
  obtain ⟨-, -, -, first, -⟩ := faulted
  refine List.IsPrefix.trans ?_ first
  unfold faultChanges
  obtain ⟨xs, told, -⟩ := appendAll_changes
    { s with changes := s.changes ++ orderedChanges d r.pins (faultedFrom r cause)
      ++ dropChanges d (faultedFrom r cause) }
    (faultNotes s d cause)
  rw [told]
  simp only [List.append_assoc]
  exact List.prefix_append ..

theorem TimerEnded.extends (ended : TimerEnded u v d) : u.changes <+: v.changes := by
  unfold TimerEnded at ended
  split at ended
  · split at ended
    · exact Faulted.extends ended
    · exact Moved.extends ended
  · rw [ended]

theorem EndsMade.extends (made : EndsMade ds u v) : u.changes <+: v.changes := by
  induction ds generalizing u with
  | nil => rw [show v = u from made]
  | cons d ds ih =>
    obtain ⟨w, ended, made⟩ := made
    exact (TimerEnded.extends ended).trans (ih made)

theorem TickFinished.extends (finished : TickFinished ds s w t) : w.changes <+: t.changes := by
  obtain ⟨v, made, -, changes, -⟩ := finished
  rw [changes]
  exact (EndsMade.extends made).trans (List.prefix_append ..)

/-- The outputs of a domain that provides a level already change first. -/
theorem ordered_prefix (fresh : s.changes = []) (up : effLevel (s.ctrl d).state ≠ none) (moved : Moved s t d r lost) :
    orderedChanges d (s.ctrl d).pins r.pins <+: t.changes := by
  obtain ⟨-, -, -, changes, -⟩ := moved
  have granted : grantedAt s d r = r.pins := by
    unfold grantedAt
    rw [if_neg fun both => up both.1]
  rw [granted, fresh, orderedChanges_same, List.nil_append] at changes
  obtain ⟨xs, told, -⟩ := appendAll_changes { s with changes := orderedChanges d (s.ctrl d).pins r.pins }
    (grantNotes s t d)
  rw [changes, told]
  simp only [List.append_assoc]
  exact List.prefix_append ..

/-! ### The tick by the name of what it ends (R77) -/

theorem State.countTick_permits (d : Dom) (s : State) : s.begin.countTick.permits d = s.permits d :=
  State.permits_alike (fun e => by rw [State.countTick_ctrl]; rfl) (fun e => by rw [State.countTick_ctrl]; rfl) d

/-- What the tick that ends the timer of a domain does there: the domain goes where its end leads. -/
abbrev EndMade (u w : State) (d : Dom) (r : Ctrl) (permitted : Bool) : Prop :=
  if (endPlace { r with timer := 0 } permitted).1 = .fault then Faulted u w d { r with timer := 0 } (endCause r)
  else Moved u w d (placed r (endPlace { r with timer := 0 } permitted)) (if r.state = .discharge then 1 else 0)

theorem State.tickFrom_ends (laws : DomainLaws s) (at_ : s.ctrl d = r) (timer : r.timer = 1)
    (runs : timed r.state = true) :
    s.begin.countTick.ctrl d = { r with timer := 0 }
      ∧ EndMade s.begin.countTick (s.begin.countTick.endTimer d) d r (s.permits d)
      ∧ TickFinished ((List.finRange 8).erase d) s (s.begin.countTick.endTimer d) (s.begin.tickFrom d).judgeRest := by
  subst at_
  obtain ⟨ended, finished⟩ := State.wholeTick_finished laws d ((List.finRange 8).erase d)
  have own : s.begin.countTick.ctrl d = { s.ctrl d with timer := 0 } := by
    rw [State.countTick_ctrl]
    change { s.ctrl d with timer := (s.ctrl d).timer - 1 } = _
    rw [timer]
  unfold TimerEnded at ended
  rw [own, if_pos ⟨runs, rfl⟩, State.countTick_permits] at ended
  exact ⟨own, ended, finished⟩

theorem State.timerEnds_of (comes : TickComes s) (timer : (s.ctrl d).timer = 1) : s.timerEnds d = true := by
  unfold State.timerEnds
  rw [State.tickDue_iff.2 comes, timer]
  rfl

/-- The record of changes is empty where the timed steps of a tick begin. -/
theorem State.countTick_fresh (s : State) : s.begin.countTick.changes = [] := rfl

/-! ### RAMP_END (R109) -/

/-- Settles O30: a loss judged in a state that R108 marks is a LOSS fault, one ahead of another event waits, and the
tick that ends the ramp without PGOOD makes the RAMP fault its first timed step. -/
theorem supplyFailureFaultsTheDomain : Obligations.SupplyFailureFaultsTheDomain := by
  intro s d r reset_high output reset forest tree derived at_
  refine ⟨fun comes => ?_, supplyLoss_waits reset_high at_, fun comes powering timer absent => ?_⟩
  · have judged := supplyLoss_judged reset_high output reset forest tree derived at_ comes
    simp only [lossFaults_iff] at judged
    exact judged
  · obtain ⟨own, ended, finished⟩ := State.tickFrom_ends ⟨output, reset, forest, tree, derived⟩ at_ timer
      (by rw [powering]; rfl)
    have fault : (endPlace { r with timer := 0 } (s.permits d)).1 = .fault := by
      unfold endPlace; simp [powering, absent]
    have cause : endCause r = .ramp := if_pos powering
    unfold EndMade at ended
    rw [if_pos fault, cause] at ended
    have exec_eq : exec (.rampEnd d) s = s.occur
        (s.timerEnds d && decide ((s.ctrl d).state = .powering) && !(s.ctrl d).pgood) (State.tickFrom d) := rfl
    rw [State.timerEnds_of comes (at_ ▸ timer), at_, powering, absent] at exec_eq
    exact ⟨_, _, _, exec_eq.trans (State.occur_of rfl _ s), s.countTick_lowered, ended, finished,
      (drop_prefix s.countTick_fresh (faultedFrom_plain (cause := .ramp) nofun) ended).trans
        (TickFinished.extends finished)⟩

/-! ### SETTLE_END (R82) -/

theorem startRow_release (row : r.pins = r.startRow run) :
    orderedChanges d r.pins (placed r (run.state, 0)).pins
      = if r.cold then [.drst d false, .iso d false] else [.iso d false] := by
  cases cold : r.cold <;> cases run <;>
    simp [placed, rowPins, row, cold, Ctrl.startRow, Ctrl.heldRow, Ctrl.rate, Run.state, orderedChanges]

/-- Settles O31: the settle end is the first timed step of its tick, and runs the domain or makes a RECHECK fault. -/
theorem settleEndCompletesOrFaults : Obligations.SettleEndCompletesOrFaults := by
  intro s d r run laws comes at_ starting timer
  obtain ⟨own, ended, finished⟩ := State.tickFrom_ends laws at_ timer (by rw [starting]; rfl)
  obtain ⟨pins, -⟩ := ctrlSound_iff.1 (at_ ▸ laws.1 d)
  have row : r.pins = r.startRow run := by rw [pins, rowPins, starting]; cases run <;> rfl
  have place : endPlace { r with timer := 0 } (s.permits d)
      = if r.setup.monitor = false ∧ r.pgood = false then (.fault, 0) else (run.state, 0) := by
    unfold endPlace; simp only [starting]
  have cause : endCause r = .recheck := if_neg (by rw [starting]; nofun)
  have stays : r.state ≠ .discharge := by rw [starting]; nofun
  have exec_eq : exec (.settleEnd d) s
      = s.occur (s.timerEnds d && isStarting (s.ctrl d).state) (State.tickFrom d) := rfl
  rw [State.timerEnds_of comes (at_ ▸ timer), at_, starting] at exec_eq
  unfold EndMade at ended
  rw [place, cause, if_neg stays] at ended
  refine ⟨_, _, _, exec_eq.trans (State.occur_of rfl _ s), s.countTick_lowered, ?_, finished⟩
  split
  · next absent =>
    rw [if_pos absent, if_pos rfl] at ended
    have plain : faultedFrom { r with timer := 0 } .recheck = r.pins := by simp [faultedFrom, starting]
    exact ⟨ended, (drop_prefix s.countTick_fresh plain ended).trans (TickFinished.extends finished)⟩
  · next present =>
    rw [if_neg present, if_neg run.state_ne_fault] at ended
    have first := ordered_prefix s.countTick_fresh (by rw [own, starting]; nofun) ended
    rw [own, startRow_release row] at first
    exact ⟨ended, first.trans (TickFinished.extends finished)⟩

/-! ### LINGER_END (R85) -/

/-- A running domain that falls is isolated before its clock stops (R88). -/
theorem runRow_fall (row : r.pins = r.runRow run) (warm : r.cold = false) (low : reachRank r.demand < 2)
    (permitted : Bool) :
    [.iso d true, .dclk d .stopped] <+: orderedChanges d r.pins (placed r (fallPlace r permitted)).pins := by
  have low : r.demand = none ∨ r.demand = some .hold := by
    rcases reach_cases r.demand with demand | demand | ⟨up, demand⟩
    · exact .inl demand
    · exact .inr demand
    · rw [demand] at low; cases up <;> exact absurd low (by decide)
  have place : fallPlace r permitted = heldPlace r permitted := by
    unfold fallPlace
    rcases low with demand | demand <;> rw [demand]
  have running := (r.rate_running run).symm
  rw [place]
  rcases heldPlace_low low permitted with place | place | place
  all_goals
    rw [place]
    simp [placed, rowPins, row, warm, running.symm, Ctrl.runRow, Pins.offRow, orderedChanges]

theorem heldRow_discharge (row : r.pins = r.heldRow) :
    orderedChanges d r.pins (placed r (.discharge, r.setup.discharge)).pins
      = if r.cold then [.pen d false] else [.drst d true, .pen d false] := by
  cases cold : r.cold <;> simp [placed, rowPins, row, cold, Ctrl.heldRow, Pins.offRow, orderedChanges]

/-- What the end of a linger drops first where the domain falls (R88). -/
theorem lingerPlace_drops (sound : ctrlSound r = true) (state : r.state = .linger l) (permitted : Bool) :
    (l ≠ .hold → reachRank r.demand < 2 →
      [.iso d true, .dclk d .stopped] <+: orderedChanges d r.pins (placed r (lingerPlace r permitted l)).pins)
    ∧ (l = .hold → r.demand = none →
      orderedChanges d r.pins (placed r (lingerPlace r permitted l)).pins
        = if r.cold then [.pen d false] else [.drst d true, .pen d false]) := by
  obtain ⟨pins, cold, -⟩ := ctrlSound_iff.1 sound
  rw [rowPins, state] at pins
  rw [coldSound, state] at cold
  cases l with
  | hold =>
    refine ⟨fun other => absurd rfl other, fun _ idle => ?_⟩
    unfold lingerPlace
    rw [if_pos idle]
    exact heldRow_discharge pins
  | slow => exact ⟨fun _ low => runRow_fall (run := .slow) pins (by simpa using cold) low permitted, nofun⟩
  | full => exact ⟨fun _ low => runRow_fall (run := .full) pins (by simpa using cold) low permitted, nofun⟩

theorem lingerPlace_falls_whole (falls : (l ≠ .hold ∧ reachRank r.demand < 2) ∨ (l = .hold ∧ r.demand = none))
    (permitted : Bool) : (lingerPlace r permitted l).1 ≠ .fault := by
  unfold lingerPlace
  cases l with
  | hold =>
    dsimp only
    rw [if_pos (falls.resolve_left fun both => both.1 rfl).2]
    nofun
  | slow | full => exact fallPlace_whole permitted

/-- Settles O32: the linger end is the first timed step of its tick; where the domain falls its outputs drop first. -/
theorem lingerEndDescendsToDemand : Obligations.LingerEndDescendsToDemand := by
  intro s d r l laws comes at_ lingers timer
  have sound : ctrlSound r = true := at_ ▸ laws.1 d
  obtain ⟨own, ended, finished⟩ := State.tickFrom_ends laws at_ timer (by rw [lingers]; rfl)
  have place : endPlace { r with timer := 0 } (s.permits d) = lingerPlace r (s.permits d) l := by
    unfold endPlace; simp only [lingers]; rfl
  have cause : endCause r = .recheck := if_neg (by rw [lingers]; nofun)
  have stays : r.state ≠ .discharge := by rw [lingers]; nofun
  have exec_eq : exec (.lingerEnd d) s
      = s.occur (s.timerEnds d && isLingering (s.ctrl d).state) (State.tickFrom d) := rfl
  rw [State.timerEnds_of comes (at_ ▸ timer), at_, lingers] at exec_eq
  unfold EndMade at ended
  rw [place, cause, if_neg stays] at ended
  have first (whole : (lingerPlace r (s.permits d) l).1 ≠ .fault) :
      orderedChanges d r.pins (placed r (lingerPlace r (s.permits d) l)).pins <+:
        (s.begin.tickFrom d).judgeRest.changes := by
    rw [if_neg whole] at ended
    have first := ordered_prefix s.countTick_fresh (by rw [own, lingers]; nofun) ended
    rw [own] at first
    exact first.trans (TickFinished.extends finished)
  obtain ⟨runs, holds⟩ := lingerPlace_drops (d := d) sound lingers (s.permits d)
  refine ⟨_, _, _, exec_eq.trans (State.occur_of rfl _ s), s.countTick_lowered, ended, fun up low => ?_,
    fun hold idle => ?_,
    finished⟩
  · exact (runs up low).trans (first (lingerPlace_falls_whole (.inl ⟨up, low⟩) _))
  · rw [← holds hold idle]
    exact first (lingerPlace_falls_whole (.inr ⟨hold, idle⟩) _)

/-! ### DISCHARGE_END (R86) -/

/-- Settles O33: the discharge end is the first timed step of its tick, and no place it leads to is FAULT. -/
theorem dischargeEndEntersOff : Obligations.DischargeEndEntersOff := by
  intro s d r laws comes at_ discharges timer
  obtain ⟨own, ended, finished⟩ := State.tickFrom_ends laws at_ timer (by rw [discharges]; rfl)
  have place : endPlace { r with timer := 0 } (s.permits d)
      = if r.demand = none then (.off, 0) else powerPlace r (s.permits d) := by
    unfold endPlace; simp only [discharges]; rfl
  have whole : (if r.demand = none then ((.off, 0) : DomState × Nat) else powerPlace r (s.permits d)).1 ≠ .fault := by
    split
    · nofun
    · exact powerPlace_whole _
  have exec_eq : exec (.dischargeEnd d) s = s.occur (s.timerEnds d && decide ((s.ctrl d).state = .discharge))
      (State.tickFrom d) := rfl
  rw [State.timerEnds_of comes (at_ ▸ timer), at_, discharges] at exec_eq
  unfold EndMade at ended
  rw [place, if_neg whole, if_pos discharges] at ended
  exact ⟨_, _, _, exec_eq.trans (State.occur_of rfl _ s), s.countTick_lowered, ended, finished⟩

end TickFrom

end Sys2Proof.Machine

/-! ## DOMAIN.SETUP and DOMAIN.DIVIDE (R93, R94) -/

namespace Sys2Proof.Machine

open Sys2Proof.Statement

section Requests

variable {s t u : State} {d e : Dom} {p : Client} {r : Request} {k : ReqKind} {body : List Byte} {x : Ctrl} {z : Setup}

/-! ### A request that moves controllers, but no lease demand -/

/-- What the take of a request comes to that its rule accepts, leaving `u` where no lease demand moved (R18). -/
structure Written (s : State) (p : Client) (r : Request) (body : List Byte) (u t : State) : Prop where
  answered : Answered s t p r .ok body
  frame : t = { u with ports := t.ports, turn := t.turn, rest := t.rest }
  judged : RestJudged s t

theorem accepted_written (turn : Turn s p r k) (restart : k ≠ .clientRestart)
    (reply : ruleOf k p r.body s.begin = accept body u) (demand : DemandLaw u) (rest : u.rest = s.rest) :
    ∃ t, exec (commandOf k) s = .next t ∧ Written s p r body u t := by
  obtain ⟨running, next, rfl⟩ := turn
  have frame : State.serve (ruleOf r.kind) p r s.begin
      = { u with ports := (State.serve (ruleOf r.kind) p r s.begin).ports, turn := p + 1 } := by
    rw [State.serve_frame, reply]; rfl
  have handed : (State.serve (ruleOf r.kind) p r s.begin).handOn = State.serve (ruleOf r.kind) p r s.begin := by
    refine State.handOn_same fun e => ?_
    rw [frame]
    exact demand e
  have taken : s.taken p r = (State.serve (ruleOf r.kind) p r s.begin).judgeRest := congrArg State.judgeRest handed
  refine ⟨s.taken p r, exec_taken running next, ⟨?_, fun c hc => ?_, s.taken_turn p r⟩, ?_, ?_⟩
  · simpa [reply, accept] using s.taken_port p r
  · rw [State.taken_port_ne s p r hc]
    exact ruleOf_port s.begin p r c (.inr restart)
  · rw [taken, State.judgeRest_frame, frame]
  · rw [taken]
    exact State.judgeRest_judged (by rw [frame]; exact rest)

/-- The demand that the table puts on a domain is that of the leases alone. -/
theorem DemandLaw.congr (law : DemandLaw s) (slots : u.slots = s.slots)
    (lease : ∀ e, (u.ctrl e).leaseDemand = (s.ctrl e).leaseDemand) : DemandLaw u :=
  fun e => by rw [lease, State.tableDemand_congr slots]; exact law e

/-! ### DOMAIN.SETUP (R93) -/

/-- The record of `e` as a setup written at `d` leaves it, before the old parent is told. -/
def State.resetup (s : State) (d : Dom) (z : Setup) (e : Dom) : Ctrl :=
  if e = d then { s.ctrl d with setup := z, counts := false } else s.ctrl e

theorem State.resetup_eq (s : State) (d : Dom) (z : Setup) (e : Dom) :
    (s.modCtrl d (fun r => { r with setup := z, counts := false })).ctrl e = s.resetup d z e := by
  rw [State.modCtrl_ctrl]; rfl

/-- The old parent of a counted domain loses that count at once (R98; notes/assumptions 18). -/
theorem State.putSetup_ctrl (d : Dom) (z : Setup) (s : State) (e : Dom) :
    (s.putSetup d z).ctrl e
      = if (s.ctrl d).counts = true ∧ (s.ctrl d).setup.parent = some e then
          (s.resetup d z e).hand (s.resetup d z e).leaseDemand ((s.putSetup d z).derivedFrom e)
        else s.resetup d z e := by
  rw [State.putSetup_eq]
  by_cases counted : (s.ctrl d).counts = true
  · rw [if_pos counted]
    cases parent : (s.ctrl d).setup.parent with
    | none => rw [if_neg fun both => by cases both.2]; exact s.resetup_eq d z e
    | some q =>
      dsimp only
      rw [State.recompute_derivedFrom, State.recompute_ctrl]
      by_cases here : e = q
      · rw [if_pos here, if_pos ⟨counted, by rw [here]⟩, s.resetup_eq, here]
      · rw [if_neg here, if_neg fun both => here (Option.some.inj both.2).symm, s.resetup_eq]
  · rw [if_neg counted, if_neg fun both => counted both.1, s.resetup_eq]

theorem State.putSetup_alone (d : Dom) (z : Setup) (s : State) :
    s.putSetup d z = { s with ctrls := (s.putSetup d z).ctrls } := by
  rcases s.putSetup_written d z with written | ⟨p, written⟩ <;> rw [written] <;> rfl

theorem State.putSetup_demand (law : DemandLaw s) (d : Dom) (z : Setup) : DemandLaw (s.putSetup d z) := by
  refine DemandLaw.congr law (by rw [State.putSetup_alone]) fun e => ?_
  have stands : (s.resetup d z e).leaseDemand = (s.ctrl e).leaseDemand := by
    unfold State.resetup
    split
    · next here => rw [here]
    · rfl
  rw [State.putSetup_ctrl, ← stands]
  split <;> rfl

/-- A domain in OFF on which no change waits is counted toward no parent. -/
theorem uncounted_off (settled : SettledLaw s) (derived : DerivedLaw s) (off : (s.ctrl d).state = .off)
    (still : (s.ctrl d).demandPending = false) : (s.ctrl d).counts = false := by
  have stands := settled d
  unfold atDemand at stands
  rw [still, off, Bool.false_or] at stands
  have counts := (derived.2 d).resolve_left (by rw [still]; nofun)
  rw [counts, counted_off off (of_decide_eq_true stands)]

theorem setup_written (turn : Turn s p r .domainSetup) (args : setupArgs r.body = some (d, z)) (role : s.supervisor = p)
    (off : (s.ctrl d).state = .off) (free : s.leaseCount d = 0) (acyclic : s.closesCycle d z.parent = false)
    (demand : DemandLaw s) :
    ∃ t, exec .domainSetup s = .next t ∧ Written s p r (setupBytes z) (s.begin.putSetup d z) t := by
  have reply : ruleOf .domainSetup p r.body s.begin = accept (setupBytes z) (s.begin.putSetup d z) := by
    change domainSetupRule p r.body s.begin = _
    unfold domainSetupRule
    rw [args, withForm_some, withRole_of (show s.begin.supervisor = p from role)]
    dsimp only
    have cycles : ¬ s.begin.closesCycle d z.parent = true := by
      rw [show s.begin.closesCycle d z.parent = s.closesCycle d z.parent from rfl, acyclic]; nofun
    rw [if_pos (show (s.begin.ctrl d).state = .off ∧ s.begin.leaseCount d = 0 from ⟨off, free⟩), if_neg cycles]
  exact accepted_written turn (by decide) reply (State.putSetup_demand (s := s.begin) demand d z)
    (by rw [State.putSetup_alone]; rfl)

/-! ### DOMAIN.DIVIDE (R94) -/

/-- A divisor moves the clock of a domain that runs at it, and no other output (R87, R94). -/
theorem Ctrl.divided_row (row : x.pins = rowPins x) (n : Nat) :
    x.divided n = { x with divisor := n, pins := rowPins { x with divisor := n } } := by
  unfold Ctrl.divided
  rw [row]
  unfold rowPins
  cases state : x.state with
  | off | powering | held | slow | full | discharge | fault => rfl
  | starting run => cases run <;> rfl
  | linger l => cases l <;> rfl

theorem divided_changes (x : Ctrl) (n : Nat) :
    (if ranAtDivided x.state ∧ x.pins.dclk ≠ .divided n then [.dclk d (.divided n)] else [])
      = orderedChanges d x.pins (x.divided n).pins := by
  unfold Ctrl.divided
  cases runs : ranAtDivided x.state with
  | false => simp [orderedChanges]
  | true => by_cases stands : x.pins.dclk = .divided n <;> simp [orderedChanges, stands, eq_comm]

theorem divide_written {n : Nat} (turn : Turn s p r .domainDivide) (args : divideArgs r.body = some (d, n))
    (role : s.supervisor = p) (demand : DemandLaw s) :
    ∃ t, exec .domainDivide s = .next t ∧ Written s p r [byteOf n] (s.begin.divide d n) t := by
  have divided := State.divide_becomes (s := s.begin) (d := d) n rfl
  have reply : ruleOf .domainDivide p r.body s.begin = accept [byteOf n] (s.begin.divide d n) := by
    change domainDivideRule p r.body s.begin = _
    unfold domainDivideRule
    rw [args, withForm_some, withRole_of (show s.begin.supervisor = p from role)]
  refine accepted_written turn (by decide) reply (DemandLaw.congr demand divided.frame.slots fun e => ?_)
    (by rw [divided.frame.domains.rest]; rfl)
  rw [divided.ctrl]
  split
  · next here => rw [here]; rfl
  · rfl

/-- Settles O34: the setup of a domain in OFF is written and its old parent told where it was counted; a divisor is
written and the clock that runs at it follows. -/
theorem setupAndDivideWriteTheController : Obligations.SetupAndDivideWriteTheController := by
  refine ⟨fun s p r d z turn args role off free acyclic demand => ?_, fun s p r d n turn args role output demand => ?_⟩
  · obtain ⟨t, exec_eq, written⟩ := setup_written turn args role off free acyclic demand
    have ctrls : t.ctrls = (s.begin.putSetup d z).ctrls := by rw [written.frame]
    have ctrl (e : Dom) : t.ctrl e = (s.begin.putSetup d z).ctrl e := by unfold State.ctrl; rw [ctrls]
    have derived (e : Dom) : t.derivedFrom e = (s.begin.putSetup d z).derivedFrom e :=
      State.derivedFrom_congr (fun c => by rw [ctrl]) (fun c => by rw [ctrl]) e
    refine ⟨t, exec_eq, fun settled law still => ?_, fun e => ?_, written.answered, ?_, written.judged⟩
    · have uncounted := uncounted_off settled law off still
      have stands (e : Dom) : t.ctrl e = s.begin.resetup d z e := by
        rw [ctrl, State.putSetup_ctrl, if_neg fun both => ?_]
        rw [show (s.begin.ctrl d).counts = (s.ctrl d).counts from rfl, uncounted] at both
        cases both.1
      have here : s.begin.resetup d z d = { s.ctrl d with setup := z, counts := (s.ctrl d).counts } := by
        rw [uncounted]; exact if_pos rfl
      exact ⟨(stands d).trans here, fun e other => (stands e).trans (if_neg other)⟩
    · rw [ctrl, derived, State.putSetup_ctrl]
      rfl
    · have frame := written.frame
      rw [State.putSetup_alone] at frame
      rw [frame]
      rfl
  · obtain ⟨t, exec_eq, written⟩ := divide_written turn args role demand
    have divided := State.divide_becomes (s := s.begin) (d := d) n rfl
    obtain ⟨pins, -⟩ := ctrlSound_iff.1 (output d)
    have ctrls : t.ctrls = (s.begin.divide d n).ctrls := by rw [written.frame]
    have ctrl (e : Dom) : t.ctrl e = if e = d then (s.ctrl d).divided n else s.ctrl e := by
      unfold State.ctrl
      rw [ctrls]
      exact divided.ctrl e
    have here : t.ctrl d = (s.ctrl d).divided n := by rw [ctrl, if_pos rfl]
    refine ⟨t, exec_eq, here.trans (Ctrl.divided_row pins n), ?_, fun e other => by rw [ctrl, if_neg other],
      written.answered,
      ?_, written.judged⟩
    · rw [here, ← divided_changes]
      rw [written.frame]
      exact divided.changes
    · have frame := written.frame
      rw [divided.frame] at frame
      rw [frame]
      rfl

end Requests

end Sys2Proof.Machine

/-! ## What the passages of a controller uphold below them -/

namespace Sys2Proof.Machine

open Sys2Proof.Statement

section Upholding

variable {s t u : State} {d e p c : Dom} {run : Run} {l : Level} {x y z : Ctrl}

/-! ### A passage moves its own domain alone -/

theorem Ctrl.Kept.trans (h : x.Kept y) (k : y.Kept z) : x.Kept z := by
  unfold Ctrl.Kept at *
  rw [k, h]

/-- Nothing but domain `d` has moved, and of its record only what a passage moves. -/
structure Turned (d : Dom) (s t : State) : Prop where
  other : ∀ e, e ≠ d → t.ctrl e = s.ctrl e
  own : (s.ctrl d).Kept (t.ctrl d)

theorem Turned.of_ctrl (ctrl : ∀ e, t.ctrl e = s.ctrl e) : Turned d s t :=
  ⟨fun e _ => ctrl e, by rw [ctrl]; rfl⟩

theorem Turned.trans (h : Turned d s t) (k : Turned d t u) : Turned d s u :=
  ⟨fun e other => (k.other e other).trans (h.other e other), h.own.trans k.own⟩

theorem Turned.kept (h : Turned d s t) (e : Dom) : (s.ctrl e).Kept (t.ctrl e) := by
  by_cases here : e = d
  · exact here ▸ h.own
  · rw [h.other e here]; rfl

theorem Turned.setup (h : Turned d s t) (e : Dom) : (t.ctrl e).setup = (s.ctrl e).setup := (h.kept e).setup
theorem Turned.parent (h : Turned d s t) (e : Dom) : t.parent e = s.parent e := congrArg Setup.parent (h.setup e)
theorem Turned.demand (h : Turned d s t) : (t.ctrl d).demand = (s.ctrl d).demand := h.own.demand

theorem State.modCtrl_turned {f : Ctrl → Ctrl} (kept : (s.ctrl d).Kept (f (s.ctrl d))) : Turned d s (s.modCtrl d f) :=
  ⟨fun e other => by rw [State.modCtrl_ctrl, if_neg other], by rw [State.modCtrl_ctrl, if_pos rfl]; exact kept⟩

theorem State.heldPermits_iff :
    s.heldPermits d = true ↔ ∀ p, s.parent d = some p →
      reachRank (some (s.ctrl d).setup.need) ≤ if p = d then 1 else reachRank (effLevel (s.ctrl p).state) := by
  unfold State.heldPermits State.permits State.parent
  rw [State.enter_ctrl, if_pos rfl]
  dsimp only
  cases (s.ctrl d).setup.parent with
  | none => simp
  | some p =>
    dsimp only
    rw [State.enter_ctrl]
    by_cases here : p = d
    · simp [here, effLevel, show reachRank (some Level.hold) = 1 from rfl]
    · simp [here]

theorem Turned.heldPermits (h : Turned d s t) : t.heldPermits d = s.heldPermits d := by
  rw [Bool.eq_iff_iff, State.heldPermits_iff, State.heldPermits_iff]
  simp only [h.parent, h.setup]
  refine forall₂_congr fun p _ => ?_
  by_cases here : p = d
  · rw [if_pos here, if_pos here]
  · rw [if_neg here, if_neg here, h.other p here]

/-! ### A passage that leaves the state of its domain -/

/-- A passage has left the state of domain `d`. -/
structure Stands (d : Dom) (s t : State) : Prop extends Turned d s t where
  state : (t.ctrl d).state = (s.ctrl d).state

theorem Stands.of_ctrl (ctrl : ∀ e, t.ctrl e = s.ctrl e) : Stands d s t := ⟨.of_ctrl ctrl, by rw [ctrl]⟩

theorem Stands.trans (h : Stands d s t) (k : Stands d t u) : Stands d s u :=
  ⟨h.toTurned.trans k.toTurned, k.state.trans h.state⟩

theorem State.drive_stands (p : Pins) (x : PinChange) (s : State) : Stands d s (s.drive d p x) :=
  ⟨⟨fun e other => by rw [State.drive_ctrl, if_neg other], by rw [State.drive_ctrl, if_pos rfl]; rfl⟩,
    by rw [State.drive_ctrl, if_pos rfl]⟩

theorem State.driveIso_stands (v : Bool) (s : State) : Stands d s (s.driveIso d v) := s.drive_stands ..
theorem State.driveDclk_stands (v : Dclk) (s : State) : Stands d s (s.driveDclk d v) := s.drive_stands ..
theorem State.driveDrst_stands (v : Bool) (s : State) : Stands d s (s.driveDrst d v) := s.drive_stands ..
theorem State.drivePen_stands (v : Bool) (s : State) : Stands d s (s.drivePen d v) := s.drive_stands ..

theorem State.setCold_stands (v : Bool) (s : State) : Stands d s (s.setCold d v) :=
  ⟨State.modCtrl_turned rfl, by rw [State.setCold_ctrl, if_pos rfl]⟩

theorem State.dropOutputs_stands (s : State) : Stands d s (s.dropOutputs d) :=
  (((s.driveIso_stands true).trans (State.driveDclk_stands ..)).trans (State.driveDrst_stands ..)).trans
    (State.drivePen_stands ..)

/-! ### The floor of a domain -/

/-- The level below which a domain may not fall: the lesser of what it provides and what is demanded of it (R84, R85).
-/
def State.floor (s : State) (d : Dom) : Nat :=
  min (reachRank (effLevel (s.ctrl d).state)) (reachRank (s.ctrl d).demand)

theorem State.floor_le_level (s : State) (d : Dom) : s.floor d ≤ reachRank (effLevel (s.ctrl d).state) :=
  min_le_left ..
theorem State.floor_le_demand (s : State) (d : Dom) : s.floor d ≤ reachRank (s.ctrl d).demand := min_le_right ..

theorem State.floor_idle (idle : s.demand d = none) : s.floor d = 0 :=
  Nat.le_zero.1 ((s.floor_le_demand d).trans (reachRank_zero.2 idle).le)

/-- A passage of domain `d` upholds its children and itself: it falls no lower than its floor, and comes to run only
where it ran already or its parent permits it (R84, R85, R100). -/
structure Upholds (d : Dom) (s t : State) : Prop extends Turned d s t where
  level : s.floor d ≤ reachRank (effLevel (t.ctrl d).state)
  start : isStarted (t.ctrl d).state = true → isStarted (s.ctrl d).state = true ∨ s.heldPermits d = true

theorem Stands.upholds (h : Stands d s t) : Upholds d s t :=
  ⟨h.toTurned, by rw [h.state]; exact s.floor_le_level d, fun started => .inl (h.state ▸ started)⟩

theorem Upholds.refl (d : Dom) (s : State) : Upholds d s s := (Stands.of_ctrl fun _ => rfl).upholds

theorem Upholds.floor (h : Upholds d s t) : s.floor d ≤ t.floor d :=
  le_min h.level ((s.floor_le_demand d).trans (by rw [h.demand]))

theorem Upholds.trans (h : Upholds d s t) (k : Upholds d t u) : Upholds d s u := by
  refine ⟨h.toTurned.trans k.toTurned, h.floor.trans k.level, fun started => ?_⟩
  rcases k.start started with ran | permits
  · exact h.start ran
  · exact .inr (h.heldPermits ▸ permits)

theorem State.enter_upholds {st : DomState} (n : Nat) (level : s.floor d ≤ reachRank (effLevel st))
    (start : isStarted st = true → isStarted (s.ctrl d).state = true ∨ s.heldPermits d = true) :
    Upholds d s (s.enter d st n) := by
  have here : ((s.enter d st n).ctrl d).state = st := by rw [State.enter_ctrl, if_pos rfl]
  exact ⟨State.modCtrl_turned rfl, by rwa [here], by rwa [here]⟩

theorem State.enter_state (st : DomState) (n : Nat) (s : State) : ((s.enter d st n).ctrl d).state = st := by
  rw [State.enter_ctrl, if_pos rfl]

/-- A domain that runs provides HOLD at least (R75). -/
theorem isStarted_level {st : DomState} (started : isStarted st = true) : 1 ≤ reachRank (effLevel st) := by
  cases st with
  | starting _ => exact le_rfl
  | slow | full => decide
  | linger l =>
    cases l with
    | hold => cases started
    | slow | full => decide
  | off | powering | held | discharge | fault => cases started

theorem Run.state_level (run : Run) : 1 ≤ reachRank (effLevel run.state) := by cases run <;> decide

/-! ### Falling (R84 to R86) -/

theorem State.toDischarge_upholds (low : s.floor d = 0) : Upholds d s (s.toDischarge d) := by
  have entered : Upholds d s (s.enter d .discharge (s.ctrl d).setup.discharge) :=
    State.enter_upholds _ (low.trans_le (Nat.zero_le _)) nofun
  exact entered.trans (((State.setCold_stands true _).trans (State.driveDrst_stands ..)).trans
    (State.drivePen_stands ..)).upholds

theorem State.toLingerHold_upholds (idle : s.demand d = none) : Upholds d s (s.toLingerHold d) := by
  have entered : Upholds d s (s.enter d (.linger .hold) (s.ctrl d).setup.linger) :=
    State.enter_upholds _ ((State.floor_idle idle).trans_le (Nat.zero_le _)) nofun
  unfold State.toLingerHold
  dsimp only
  split
  · exact entered.trans (State.toDischarge_upholds (State.floor_idle (entered.demand.trans idle)))
  · exact entered

/-! ### Into FAULT (R113 to R115) -/

/-- Domain `d` has gone into FAULT and the stop below it has been made. -/
def Fells (d : Dom) (s t : State) : Prop :=
  ∃ v, Turned d s v ∧ (v.ctrl d).state = .fault ∧ ∀ e, t.ctrl e = (v.stopChildren 8 d).ctrl e

/-- The passages of an event of domain `d` uphold the tree, or take the domain into FAULT with the stop below it. -/
def Turns (d : Dom) (s t : State) : Prop := Upholds d s t ∨ Fells d s t

theorem Upholds.turns (h : Upholds d s t) : Turns d s t := .inl h

theorem Upholds.then (h : Upholds d s t) (k : Turns d t u) : Turns d s u :=
  k.imp h.trans fun ⟨v, turned, fault, stopped⟩ => ⟨v, h.toTurned.trans turned, fault, stopped⟩

theorem Stands.then (h : Stands d s t) (k : Turns d t u) : Turns d s u := h.upholds.then k

theorem State.toFault_fells (s : State) (d : Dom) (cause : FaultCause) : Fells d s (s.toFault d cause) := by
  have down : Turned d (s.dropOutputs d) ((s.dropOutputs d).modCtrl d
      fun r => { r with state := .fault, timer := 0, cold := true, cause := cause }) := State.modCtrl_turned rfl
  refine ⟨((s.dropOutputs d).modCtrl d
    fun r => { r with state := .fault, timer := 0, cold := true, cause := cause }).tellFault d cause, ?_, ?_,
    fun e => State.raiseHomeLost_ctrl ..⟩
  · exact ((State.dropOutputs_stands s).toTurned.trans down).trans (.of_ctrl fun e => State.tellFault_ctrl ..)
  · rw [State.tellFault_ctrl, State.modCtrl_ctrl, if_pos rfl]

/-! ### Rising (R79 to R82) -/

theorem State.completeStart_turns (starting : (s.ctrl d).state = .starting run) :
    Turns d s (s.completeStart d run) := by
  unfold State.completeStart
  split
  · exact .inr (State.toFault_fells ..)
  · have released : Stands d s (((s.driveDrst d false).setCold d false).driveIso d false) :=
      ((State.driveDrst_stands false s).trans (State.setCold_stands ..)).trans (State.driveIso_stands ..)
    have state := released.state.trans starting
    refine released.then (Upholds.turns (State.enter_upholds _ ?_ fun _ => .inl (by rw [state]; rfl)))
    exact (State.floor_le_level ..).trans (by rw [state]; exact run.state_level)

theorem State.toStarting_turns (held : (s.ctrl d).state = .held) (permits : s.permits d = true) :
    Turns d s (s.toStarting d run) := by
  have clocked := State.driveDclk_stands (d := d) (s.rate d run) s
  have entered : Upholds d s ((s.driveDclk d (s.rate d run)).enter d (.starting run)
      ((s.driveDclk d (s.rate d run)).ctrl d).setup.settle) := by
    refine clocked.upholds.trans (State.enter_upholds _ ?_ fun _ => .inr ?_)
    · exact (State.floor_le_level ..).trans (by rw [clocked.state, held]; rfl)
    · rw [clocked.heldPermits, ← State.permits_held held, permits]
  unfold State.toStarting
  dsimp only
  split
  · exact entered.then (State.completeStart_turns (State.enter_state ..))
  · exact entered.turns

theorem State.heldCompare_turns (held : (s.ctrl d).state = .held) : Turns d s (s.heldCompare d) := by
  unfold State.heldCompare
  split
  · next idle => exact (State.toLingerHold_upholds idle).turns
  · exact (Upholds.refl d s).turns
  · split
    · next permits => exact State.toStarting_turns held permits
    · exact (Upholds.refl d s).turns
  · split
    · next permits => exact State.toStarting_turns held permits
    · exact (Upholds.refl d s).turns

theorem State.enterHeld_upholds (low : s.floor d ≤ 1) : Upholds d s (s.enter d .held 0) :=
  State.enter_upholds _ low nofun

theorem State.toHeld_turns (low : s.floor d ≤ 1) : Turns d s (s.toHeld d) :=
  (State.enterHeld_upholds low).then (State.heldCompare_turns (State.enter_state ..))

theorem State.endPowering_turns (low : s.floor d ≤ 1) : Turns d s (s.endPowering d) := by
  have entered := State.enterHeld_upholds low
  have held : ((s.enter d .held 0).ctrl d).state = .held := State.enter_state ..
  have granted : Stands d (s.enter d .held 0) ((s.enter d .held 0).tellGranted d none) :=
    .of_ctrl fun e => State.tellGranted_ctrl ..
  unfold State.endPowering
  dsimp only
  split
  · exact entered.then (granted.then (State.heldCompare_turns (granted.state.trans held)))
  · exact entered.then (State.heldCompare_turns held)

/-- A domain that provides nothing has nothing to fall from (R75). -/
theorem State.floor_off (off : effLevel (s.ctrl d).state = none) : s.floor d = 0 :=
  Nat.le_zero.1 ((s.floor_le_level d).trans (by rw [off]; rfl))

theorem State.toPowering_turns (off : effLevel (s.ctrl d).state = none) : Turns d s (s.toPowering d) := by
  have penned := State.drivePen_stands (d := d) true s
  have entered : Upholds d s ((s.drivePen d true).enter d .powering ((s.drivePen d true).ctrl d).setup.ramp) := by
    refine penned.upholds.trans (State.enter_upholds _ ?_ nofun)
    exact (State.floor_off (by rw [penned.state, off])).trans_le (Nat.zero_le _)
  have cooled := State.setCold_stands (d := d) true
    ((s.drivePen d true).enter d .powering ((s.drivePen d true).ctrl d).setup.ramp)
  unfold State.toPowering
  dsimp only
  split
  · refine entered.then (cooled.then (State.endPowering_turns ?_))
    exact (State.floor_off (by rw [cooled.state, State.enter_state]; rfl)).trans_le (Nat.zero_le _)
  · exact (entered.trans cooled.upholds).turns

theorem State.toOff_turns (off : effLevel (s.ctrl d).state = none) : Turns d s (s.toOff d) := by
  have entered : Upholds d s (s.enter d .off 0) :=
    State.enter_upholds _ ((State.floor_off off).trans_le (Nat.zero_le _)) nofun
  have lost : Stands d (s.enter d .off 0) (((s.enter d .off 0).setCold d true).raiseHomeLost d) :=
    (State.setCold_stands ..).trans (.of_ctrl fun e => State.raiseHomeLost_ctrl ..)
  unfold State.toOff
  dsimp only
  split
  · exact (entered.trans lost.upholds).turns
  · exact entered.then (lost.then (State.toPowering_turns (by rw [lost.state, State.enter_state]; rfl)))

/-! ### Running levels and lingers (R83 to R85) -/

theorem State.leaveRunning_turns (low : s.floor d ≤ 1) : Turns d s (s.leaveRunning d) := by
  have stopped : Stands d s ((s.driveIso d true).driveDclk d .stopped) :=
    (State.driveIso_stands ..).trans (State.driveDclk_stands ..)
  refine stopped.then (State.toHeld_turns ?_)
  unfold State.floor at low ⊢
  rwa [stopped.state, stopped.demand]

theorem State.toRun_turns (wanted : s.demand d = some run.level) (ran : isStarted (s.ctrl d).state = true) :
    Turns d s (s.toRun d run) := by
  have entered : Upholds d s (s.enter d run.state 0) := by
    refine State.enter_upholds _ ((s.floor_le_demand d).trans ?_) fun _ => .inl ran
    rw [show (s.ctrl d).demand = some run.level from wanted]
    cases run <;> rfl
  exact (entered.trans (State.driveDclk_stands ..).upholds).turns

/-- A domain whose demand is HOLD or none may fall to HELD. -/
theorem State.floor_le_one (low : reachRank (s.demand d) ≤ 1) : s.floor d ≤ 1 := (s.floor_le_demand d).trans low

theorem State.leaveLinger_turns (lingers : (s.ctrl d).state = .linger l) : Turns d s (s.leaveLinger d l) := by
  have ran (running : l ≠ .hold) : isStarted (s.ctrl d).state = true := by
    rw [lingers]
    cases l with
    | hold => exact absurd rfl running
    | slow | full => rfl
  unfold State.leaveLinger
  split
  · next idle => exact (State.toDischarge_upholds (State.floor_idle idle)).turns
  · exact State.toHeld_turns ((s.floor_le_level d).trans (by rw [lingers]; rfl))
  · next running wanted => exact State.toRun_turns (run := .full) wanted (ran (by simpa using running))
  · next running wanted => exact State.toRun_turns (run := .slow) wanted (ran (by simpa using running))
  · next wanted => exact State.leaveRunning_turns (State.floor_le_one (by rw [wanted]; rfl))
  · next wanted => exact State.leaveRunning_turns (State.floor_le_one (by rw [wanted]; exact Nat.zero_le _))

theorem State.toLingerRun_turns (runs : (s.ctrl d).state = run.state) : Turns d s (s.toLingerRun d run) := by
  have entered : Upholds d s (s.enter d (.linger run.level) (s.ctrl d).setup.linger) := by
    refine State.enter_upholds _ ((s.floor_le_level d).trans ?_) fun _ => .inl ?_
    · rw [runs]; cases run <;> rfl
    · rw [runs]; cases run <;> rfl
  unfold State.toLingerRun
  dsimp only
  split
  · exact entered.then (State.leaveLinger_turns (State.enter_state ..))
  · exact entered.turns

/-! ### The passages of each event -/

/-- A start goes on toward another level. -/
theorem State.retarget_turns (starting : isStarted (s.ctrl d).state = true)
    (level : effLevel (s.ctrl d).state = some .hold) :
    Turns d s ((s.modCtrl d fun r => { r with state := .starting run }).driveDclk d (s.rate d run)) := by
  have here : ((s.modCtrl d fun r => { r with state := .starting run }).ctrl d).state = .starting run := by
    rw [State.modCtrl_ctrl, if_pos rfl]
  have moved : Upholds d s (s.modCtrl d fun r => { r with state := .starting run }) :=
    ⟨State.modCtrl_turned rfl, by rw [here]; exact (s.floor_le_level d).trans (by rw [level]; rfl),
      fun _ => .inl starting⟩
  exact (moved.trans (State.driveDclk_stands ..).upholds).turns

theorem State.demandStep_turns (d : Dom) (s : State) : Turns d s (s.demandStep d) := by
  have stays := (Upholds.refl d s).turns
  unfold State.demandStep
  split
  · exact stays
  · next off _ => exact State.toPowering_turns (by rw [off]; rfl)
  · exact stays
  · next held => exact State.heldCompare_turns held
  · next starting _ => exact State.retarget_turns (by rw [starting]; rfl) (by rw [starting]; rfl)
  · next starting _ => exact State.retarget_turns (by rw [starting]; rfl) (by rw [starting]; rfl)
  · next starting _ _ =>
    have clocked := State.driveDclk_stands (d := d) .stopped s
    refine clocked.then (State.toHeld_turns ((State.floor_le_level ..).trans ?_))
    rw [clocked.state, starting]
    rfl
  · next slow wanted => exact State.toRun_turns (run := .full) wanted (by rw [slow]; rfl)
  · exact stays
  · next slow _ _ => exact State.toLingerRun_turns slow
  · exact stays
  · next full _ => exact State.toLingerRun_turns full
  · next lingers =>
    split
    · exact State.leaveLinger_turns lingers
    · exact stays
  · exact stays
  · exact stays

theorem State.parentStep_turns (d : Dom) (s : State) : Turns d s (s.parentStep d) := by
  unfold State.parentStep
  split
  · next held => exact State.heldCompare_turns held
  · exact (Upholds.refl d s).turns

theorem State.pgoodStep_turns (d : Dom) (s : State) : Turns d s (s.pgoodStep d) := by
  unfold State.pgoodStep
  split
  · next powering =>
    exact State.endPowering_turns ((State.floor_off (by rw [powering]; rfl)).trans_le (Nat.zero_le _))
  · exact (Upholds.refl d s).turns

theorem State.lossStep_turns (d : Dom) (s : State) : Turns d s (s.lossStep d) := by
  unfold State.lossStep
  split
  · exact .inr (State.toFault_fells ..)
  · exact (Upholds.refl d s).turns

theorem State.endStep_turns (d : Dom) (s : State) : Turns d s (s.endStep d) := by
  unfold State.endStep
  split
  · split
    · exact (Upholds.refl d s).turns
    · exact .inr (State.toFault_fells ..)
  · next starting => exact State.completeStart_turns starting
  · next lingers => exact State.leaveLinger_turns lingers
  · next discharge => exact State.toOff_turns (by rw [discharge]; rfl)
  all_goals exact (Upholds.refl d s).turns

end Upholding

end Sys2Proof.Machine

/-! ## The law of the tree through an event -/

namespace Sys2Proof.Machine

open Sys2Proof.Statement

section Bearing

variable {s t u v : State} {d e p c : Dom} {r : Ctrl} {fresh lax : Set Dom} {n : Nat}

/-! ### The law of the tree within an event (R97, R100) -/

/-- Every started child is counted and in the derived demand of its parent, but for the `fresh`, which are still to be
counted; and it has a parent at its need, but under the `lax`, below which a stop is still to be made (R97, R100). -/
def Borne (fresh lax : Set Dom) (s : State) : Prop :=
  ∀ c p, s.parent c = some p → isStarted (s.ctrl c).state = true →
    (c ∈ fresh ∨ ((s.ctrl c).counts = true
      ∧ reachRank (some (s.ctrl c).setup.need) ≤ reachRank (s.ctrl p).derivedDemand))
    ∧ (p ∈ lax ∨ reachRank (some (s.ctrl c).setup.need) ≤ reachRank (effLevel (s.ctrl p).state))

theorem treeLaw_iff : TreeLaw s ↔ Borne ∅ ∅ s := by
  refine ⟨fun tree c p parent started => ?_, fun borne c => ?_⟩
  · obtain ⟨counts, level, demand⟩ := childHeld_started tree parent started
    exact ⟨.inr ⟨counts, demand⟩, .inr level⟩
  · unfold childHeld
    cases parent : (s.ctrl c).setup.parent with
    | none => rfl
    | some p =>
      cases started : isStarted (s.ctrl c).state with
      | false => rfl
      | true =>
        obtain ⟨counted, level⟩ := borne c p parent started
        obtain ⟨counts, demand⟩ := counted.resolve_left (Set.notMem_empty c)
        simp [counts, demand, level.resolve_left (Set.notMem_empty p)]

theorem Borne.mono (h : Borne fresh lax s) {fresh' lax' : Set Dom} (more : fresh ⊆ fresh') (laxer : lax ⊆ lax') :
    Borne fresh' lax' s := fun c p parent started =>
  ⟨(h c p parent started).1.imp_left (@more c), (h c p parent started).2.imp_left (@laxer p)⟩

/-- The law rests on the states, the setups, the counts and the derived demands alone. -/
theorem Borne.congr (h : Borne fresh lax s) (state : ∀ e, (t.ctrl e).state = (s.ctrl e).state)
    (setup : ∀ e, (t.ctrl e).setup = (s.ctrl e).setup) (counts : ∀ e, (t.ctrl e).counts = (s.ctrl e).counts)
    (derived : ∀ e, (t.ctrl e).derivedDemand = (s.ctrl e).derivedDemand) : Borne fresh lax t := by
  unfold Borne State.parent at *
  simpa only [state, setup, counts, derived] using h

theorem Borne.of_ctrl (h : Borne fresh lax s) (ctrl : ∀ e, t.ctrl e = s.ctrl e) : Borne fresh lax t :=
  h.congr (fun e => by rw [ctrl]) (fun e => by rw [ctrl]) (fun e => by rw [ctrl]) fun e => by rw [ctrl]

theorem Ctrl.counted_of_started (started : isStarted r.state = true) : r.counted = true := by
  have whole : r.state ≠ .fault := by
    intro fault
    rw [fault] at started
    cases started
  simp [Ctrl.counted, whole, started]

theorem State.recount_started (started : isStarted (s.ctrl d).state = true) :
    ((s.recount d).ctrl d).counts = true := by
  rw [State.recount_ctrl, if_pos rfl]
  exact Ctrl.counted_of_started started

/-- A domain counted anew, and its parent with it, where it has started (R97, R98). -/
theorem Borne.recounted (h : Borne {d} lax s) : Borne ∅ lax ((s.recount d).recomputeParent d) := by
  intro c p parent started
  have told (e : Dom) := (State.recount_told d s e).trans (State.recomputeParent_told d _ e)
  have setup (e : Dom) := (State.recount_told d s e).setup
  rw [State.parent, (told c).setup] at parent
  rw [(told c).state] at started
  rw [(told c).setup, (told p).state]
  obtain ⟨counted, level⟩ := h c p parent started
  have counts : ((s.recount d).ctrl c).counts = true := by
    by_cases here : c = d
    · subst here; exact State.recount_started started
    · rw [State.recount_counts here]; exact (counted.resolve_left here).1
  refine ⟨.inr ⟨by rw [State.recomputeParent_counts]; exact counts, ?_⟩, level⟩
  rw [State.recomputeParent_ctrl]
  split
  · have need := State.need_le_derivedFrom (s := s.recount d) (c := c) (p := p)
      (by rw [State.parent, setup]; exact parent) counts
    rwa [setup] at need
  · next away =>
    have other : c ≠ d := by
      rintro rfl
      exact away (by rw [setup]; exact parent)
    rw [State.recount_derivedDemand]
    exact (counted.resolve_left other).2

/-- The end of a change of domain `d` tells its children and counts it (R98, R99). -/
theorem Borne.handNeighbours (h : Borne {d} lax s) (before : Reach) : Borne ∅ lax (s.handNeighbours d before) := by
  have told := s.tellChildren_told d before
  have called : Borne {d} lax (s.tellChildren d before) :=
    h.congr (fun e => (told e).state) (fun e => (told e).setup) (State.tellChildren_counts d before s)
      (State.tellChildren_derivedDemand d before s)
  exact called.recounted.of_ctrl (State.handNeighbours_ctrl d before s)

/-! ### The forced stop (R104, R105) -/

/-- The domains that are STARTING or at a running level. -/
def State.started (s : State) : Finset Dom := Finset.univ.filter fun e => isStarted (s.ctrl e).state = true

theorem State.mem_started (s : State) (e : Dom) : e ∈ s.started ↔ isStarted (s.ctrl e).state = true := by
  simp [State.started]

/-- Stops alone have been made: every domain stands, or has stopped running. -/
structure Sheds (s t : State) : Prop where
  setup : ∀ e, (t.ctrl e).setup = (s.ctrl e).setup
  state : ∀ e, (t.ctrl e).state = (s.ctrl e).state
    ∨ (isStarted (s.ctrl e).state = true ∧ isStarted (t.ctrl e).state = false)

theorem Sheds.refl (s : State) : Sheds s s := ⟨fun _ => rfl, fun _ => .inl rfl⟩

theorem Sheds.idle (h : Sheds s t) (idle : isStarted (s.ctrl e).state = false) :
    (t.ctrl e).state = (s.ctrl e).state :=
  (h.state e).resolve_right fun stopped => by rw [idle] at stopped; cases stopped.1

theorem Sheds.stands (h : Sheds s t) (started : isStarted (t.ctrl e).state = true) :
    (t.ctrl e).state = (s.ctrl e).state :=
  (h.state e).resolve_right fun stopped => by rw [started] at stopped; cases stopped.2

theorem Sheds.trans (h : Sheds s t) (k : Sheds t u) : Sheds s u := by
  refine ⟨fun e => (k.setup e).trans (h.setup e), fun e => ?_⟩
  rcases k.state e with stands | ⟨ran, stopped⟩
  · rw [stands]; exact h.state e
  · exact .inr ⟨h.stands ran ▸ ran, stopped⟩

theorem Sheds.started_subset (h : Sheds s t) : t.started ⊆ s.started := fun e ran => by
  rw [State.mem_started] at *
  exact h.stands ran ▸ ran

theorem State.halted_turned (c : Dom) (s : State) :
    Turned c s (s.halted c) ∧ isStarted ((s.halted c).ctrl c).state = false := by
  have stopped : Stands c s ((s.driveIso c true).driveDclk c .stopped) :=
    (State.driveIso_stands ..).trans (State.driveDclk_stands ..)
  have entered : Turned c ((s.driveIso c true).driveDclk c .stopped)
      (((s.driveIso c true).driveDclk c .stopped).enter c .held 0) := State.modCtrl_turned rfl
  have told : Stands c (((s.driveIso c true).driveDclk c .stopped).enter c .held 0)
      ((((s.driveIso c true).driveDclk c .stopped).enter c .held 0).tellUngranted c (effLevel (s.ctrl c).state)) :=
    .of_ctrl fun e => State.tellUngranted_ctrl ..
  have held := told.state.trans (State.enter_state ..)
  have turned := (stopped.toTurned.trans entered).trans told.toTurned
  unfold State.halted
  dsimp only
  split
  · next idle =>
    refine ⟨turned.trans (State.toLingerHold_upholds idle).toTurned, ?_⟩
    unfold State.toLingerHold
    dsimp only
    split
    · rw [State.toDischarge_ctrl]; rfl
    · rw [State.enter_state]; rfl
  · exact ⟨turned, by rw [held]; rfl⟩

theorem State.stopOne_stopped (c : Dom) (s : State) : isStarted ((s.stopOne c).ctrl c).state = false := by
  rw [State.stopOne_eq, State.handNeighbours_state]
  exact (s.halted_turned c).2

theorem State.stopOne_sheds (started : isStarted (s.ctrl c).state = true) : Sheds s (s.stopOne c) := by
  obtain ⟨turned, -⟩ := s.halted_turned c
  refine ⟨fun e => ?_, fun e => ?_⟩
  · rw [State.stopOne_eq, State.handNeighbours_setup, turned.setup]
  · by_cases here : e = c
    · subst here; exact .inr ⟨started, s.stopOne_stopped e⟩
    · rw [State.stopOne_eq, State.handNeighbours_state, turned.other e here]; exact .inl rfl

theorem State.stopChildren_sheds (n : Nat) (p : Dom) (s : State) : Sheds s (s.stopChildren n p) :=
  State.stopChildren_keeps (P := Sheds s) (fun _ _ _ h _ started _ => h.trans (State.stopOne_sheds started)) n p s
    (.refl s)

/-- A stop takes the tree to where only the stop below the stopped domain is still to be made. -/
theorem Borne.stopOne (h : Borne ∅ lax s) : Borne ∅ (insert c lax) (s.stopOne c) := by
  obtain ⟨turned, stopped⟩ := s.halted_turned c
  rw [State.stopOne_eq]
  refine Borne.handNeighbours (fun x p parent started => ?_) _
  have other : x ≠ c := by
    rintro rfl
    rw [stopped] at started
    cases started
  rw [turned.other x other] at started ⊢
  obtain ⟨counted, level⟩ := h x p (turned.parent x ▸ parent) started
  refine ⟨.inr ?_, ?_⟩
  · rw [(turned.kept p).derivedDemand]
    exact counted.resolve_left (Set.notMem_empty x)
  · by_cases here : p = c
    · exact .inl (here ▸ Set.mem_insert ..)
    · rw [turned.other p here]
      exact level.imp_left (Set.mem_insert_of_mem c)

/-- The stop below a domain that does not run, made `n` levels deep, is complete where at most `n` domains run (R104,
R105). -/
def StopsClear (n : Nat) : Prop :=
  ∀ q u lax, Borne ∅ (insert q lax) u → u.started.card ≤ n → isStarted (u.ctrl q).state = false →
    Borne ∅ lax (u.stopChildren n q)

/-- The sweep at one child of `p`, where the stops below each stopped domain do their work. -/
theorem Borne.stopChild (below : StopsClear n) (h : Borne ∅ lax s) (room : s.started.card ≤ n + 1) (p c : Dom) :
    Borne ∅ lax (State.stopChild n p s c) := by
  unfold State.stopChild
  split
  · next cut =>
    obtain ⟨-, started, -⟩ := cut
    refine below c _ lax h.stopOne ?_ (s.stopOne_stopped c)
    have fewer : (s.stopOne c).started ⊂ s.started := by
      refine Finset.ssubset_iff_subset_ne.2 ⟨(State.stopOne_sheds started).started_subset, fun same => ?_⟩
      have ran := (s.mem_started c).2 started
      rw [← same, State.mem_started, State.stopOne_stopped] at ran
      cases ran
    exact Nat.le_of_lt_succ ((Finset.card_lt_card fewer).trans_le room)
  · exact h

theorem State.stopChild_sheds (n : Nat) (p c : Dom) (s : State) : Sheds s (State.stopChild n p s c) := by
  unfold State.stopChild
  split
  · next cut => exact (State.stopOne_sheds cut.2.1).trans (State.stopChildren_sheds ..)
  · exact .refl s

/-- After the sweep at a child of `p`, the child runs only where `p` stood at its need. -/
theorem State.stopChild_met (parent : s.parent c = some p)
    (started : isStarted ((State.stopChild n p s c).ctrl c).state = true) :
    reachRank (some (s.ctrl c).setup.need) ≤ reachRank (effLevel (s.ctrl p).state) := by
  have ran : isStarted (s.ctrl c).state = true := (State.stopChild_sheds n p c s).stands started ▸ started
  by_contra barred
  have permits : s.permits c = false := by rw [State.permits_child parent]; exact decide_eq_false barred
  unfold State.stopChild at started
  rw [if_pos ⟨parent, ran, permits⟩, (State.stopChildren_sheds n c _).idle (s.stopOne_stopped c),
    State.stopOne_stopped] at started
  cases started

/-- The sweep over the children of `p`, those of `cs` still to be reached. -/
theorem Borne.sweep (below : StopsClear n) (cs : List Dom) (h : Borne ∅ (insert p lax) s)
    (room : s.started.card ≤ n + 1) (idle : isStarted (s.ctrl p).state = false)
    (met : ∀ c, c ∉ cs → s.parent c = some p → isStarted (s.ctrl c).state = true →
      reachRank (some (s.ctrl c).setup.need) ≤ reachRank (effLevel (s.ctrl p).state)) :
    Borne ∅ lax (cs.foldl (State.stopChild n p) s) := by
  induction cs generalizing s with
  | nil =>
    intro c q parent started
    obtain ⟨counted, level⟩ := h c q parent started
    refine ⟨counted, level.elim (fun laxly => ?_) .inr⟩
    rcases Set.mem_insert_iff.1 laxly with rfl | laxly
    · exact .inr (met c List.not_mem_nil parent started)
    · exact .inl laxly
  | cons c cs ih =>
    have sheds := State.stopChild_sheds n p c s
    have stands := sheds.idle idle
    refine ih (Borne.stopChild below h room p c) ((Finset.card_le_card sheds.started_subset).trans room)
      (by rw [stands, idle]) fun x unreached parent started => ?_
    rw [State.parent, sheds.setup] at parent
    rw [sheds.setup, stands]
    by_cases here : x = c
    · subst here
      exact State.stopChild_met parent started
    · exact met x (by simp [here, unreached]) parent (sheds.stands started ▸ started)

/-- Each stop leaves one domain fewer running, so as many levels are enough as domains run. -/
theorem stopsClear (n : Nat) : StopsClear n := by
  induction n with
  | zero =>
    intro p s lax _ room _ c q _ started
    have ran := (s.mem_started c).2 started
    rw [Finset.card_eq_zero.1 (Nat.le_zero.1 room)] at ran
    cases ran
  | succ n ih =>
    intro p s lax h room idle
    exact Borne.sweep ih _ h room idle fun c unreached => absurd (List.mem_finRange c) unreached

/-! ### A whole event (R76) -/

theorem reachRank_derived_le (r : Ctrl) : reachRank r.derivedDemand ≤ reachRank r.demand := by
  rw [Ctrl.demand, reachRank_reachMax]
  exact le_max_right ..

/-- What is demanded for a child that runs is the floor of its parent. -/
theorem TreeLaw.need_le_floor (tree : TreeLaw s) (parent : s.parent c = some p)
    (started : isStarted (s.ctrl c).state = true) : reachRank (some (s.ctrl c).setup.need) ≤ s.floor p := by
  obtain ⟨-, level, demand⟩ := childHeld_started tree parent started
  exact le_min level (demand.trans (reachRank_derived_le _))

/-- Passages that uphold the tree leave domain `d` alone to be counted. -/
theorem Upholds.borne (h : Upholds d s t) (tree : TreeLaw s) : Borne {d} ∅ t := by
  intro c p parent started
  rw [h.parent] at parent
  rw [h.setup, (h.kept c).counts, (h.kept p).derivedDemand]
  have falls (ran : isStarted (s.ctrl c).state = true) :
      reachRank (some (s.ctrl c).setup.need) ≤ reachRank (effLevel (t.ctrl p).state) := by
    by_cases here : p = d
    · subst here; exact (tree.need_le_floor parent ran).trans h.level
    · rw [h.other p here]; exact (childHeld_started tree parent ran).2.1
  by_cases own : c = d
  · subst own
    refine ⟨.inl rfl, .inr ?_⟩
    rcases h.start started with ran | permits
    · exact falls ran
    · have need := State.heldPermits_iff.1 permits p parent
      split at need
      · next here => subst here; exact need.trans (isStarted_level started)
      · next other => rwa [h.other p other]
  · rw [h.other c own] at started
    obtain ⟨counts, -, demand⟩ := childHeld_started tree parent started
    exact ⟨.inr ⟨counts, demand⟩, .inr (falls started)⟩

/-- A domain gone into FAULT leaves its children to be stopped. -/
theorem Turned.borne_fault (h : Turned d s v) (fault : (v.ctrl d).state = .fault) (tree : TreeLaw s) :
    Borne ∅ (insert d ∅) v := by
  intro c p parent started
  have other : c ≠ d := by
    rintro rfl
    rw [fault] at started
    cases started
  rw [h.parent] at parent
  rw [h.other c other] at started ⊢
  obtain ⟨counts, level, demand⟩ := childHeld_started tree parent started
  refine ⟨.inr ⟨counts, by rwa [(h.kept p).derivedDemand]⟩, ?_⟩
  by_cases here : p = d
  · exact .inl (here ▸ Set.mem_insert ..)
  · rw [h.other p here]; exact .inr level

theorem Fells.borne (h : Fells d s t) (tree : TreeLaw s) : Borne ∅ ∅ t := by
  obtain ⟨v, turned, fault, stopped⟩ := h
  have few : v.started.card ≤ 8 := (Finset.card_le_univ _).trans (by simp)
  exact (stopsClear 8 d v ∅ (turned.borne_fault fault tree) few (by rw [fault]; rfl)).of_ctrl stopped

theorem Turns.borne (h : Turns d s t) (tree : TreeLaw s) : Borne {d} ∅ t :=
  h.elim (fun upholds => upholds.borne tree) fun fells =>
    (fells.borne tree).mono (Set.empty_subset _) (Set.Subset.refl _)

theorem Turns.setup (h : Turns d s t) (e : Dom) : (t.ctrl e).setup = (s.ctrl e).setup := by
  rcases h with upholds | ⟨v, turned, -, stopped⟩
  · exact upholds.setup e
  · rw [stopped, (State.stopChildren_sheds ..).setup, turned.setup]

theorem State.grant_ctrl (d : Dom) (before : Reach) (s : State) (e : Dom) : (s.grant d before).ctrl e = s.ctrl e := by
  unfold State.grant
  split
  · rfl
  · exact State.tellGranted_ctrl ..

/-- An event whose passages uphold the tree keeps the law of the tree (R76, R100). -/
theorem TreeLaw.event {passage : State → State} (tree : TreeLaw s) (turns : Turns d s (passage s)) :
    TreeLaw (s.event d passage) := by
  rw [State.event_eq]
  exact treeLaw_iff.2 (((turns.borne tree).of_ctrl (State.grant_ctrl d _ _)).handNeighbours _)

theorem State.event_setup {passage : State → State} (turns : Turns d s (passage s)) (e : Dom) :
    ((s.event d passage).ctrl e).setup = (s.ctrl e).setup := by
  rw [State.event_eq, State.handNeighbours_setup, State.grant_ctrl, turns.setup]

end Bearing

end Sys2Proof.Machine

/-! ## The law of the tree through every step -/

namespace Sys2Proof.Machine

open Sys2Proof.Statement

section Tree

variable {s t u : State} {d e p c : Dom} {r : Ctrl} {plan : Fin 4} {z : Setup}

/-! ### Events that are none of a controller -/

theorem TreeLaw.of_ctrl (tree : TreeLaw s) (ctrl : ∀ e, t.ctrl e = s.ctrl e) : TreeLaw t :=
  treeLaw_iff.2 ((treeLaw_iff.1 tree).of_ctrl ctrl)

theorem TreeLaw.of_ctrls (tree : TreeLaw s) (ctrls : t.ctrls = s.ctrls) : TreeLaw t :=
  tree.of_ctrl fun e => by unfold State.ctrl; rw [ctrls]

theorem TreeLaw.judged (tree : TreeLaw s) : TreeLaw s.judgeRest := tree.of_ctrls (by rw [State.judgeRest_frame])

theorem TreeLaw.alike (tree : TreeLaw s) (alike : ∀ e, (s.ctrl e).Alike (t.ctrl e)) : TreeLaw t :=
  treeLaw_iff.2 ((treeLaw_iff.1 tree).congr (fun e => (alike e).state) (fun e => (alike e).setup)
    (fun e => (alike e).counts) fun e => (alike e).derivedDemand)

theorem TreeLaw.divide (tree : TreeLaw s) (k : Nat) : TreeLaw (s.divide d k) := by
  have divided := State.divide_becomes (s := s) (d := d) k rfl
  refine tree.alike fun e => ?_
  rw [divided.ctrl]
  split
  · next here => rw [here]; rfl
  · rfl

theorem State.setPgood_taken (high : Bool) : Taken d s (s.setPgood d high) := State.modCtrl_taken rfl
theorem State.setLoss_taken (waits : Bool) : Taken d s (s.setLoss d waits) := State.modCtrl_taken rfl

/-- DOMAIN.SETUP is written at a domain in OFF, which its parent does not bear; where the old parent counted it, the
other children of that parent are counted as before (R92, R93). -/
theorem TreeLaw.setup (tree : TreeLaw s) (off : (s.ctrl d).state = .off) : TreeLaw (s.putSetup d z) := by
  refine treeLaw_iff.2 fun c p parent started => ?_
  have told := s.putSetup_told d z
  have state (e : Dom) : ((s.putSetup d z).ctrl e).state = (s.ctrl e).state := by
    rw [(told e).state, State.resetup_eq]
    unfold State.resetup
    split
    · next here => rw [here]
    · rfl
  rw [state] at started
  have other : c ≠ d := by
    rintro rfl
    rw [off] at started
    cases started
  have stands : (s.modCtrl d (fun r => { r with setup := z, counts := false })).ctrl c = s.ctrl c := by
    rw [State.modCtrl_ctrl, if_neg other]
  have setup : ((s.putSetup d z).ctrl c).setup = (s.ctrl c).setup := by rw [(told c).setup, stands]
  have counted : ((s.putSetup d z).ctrl c).counts = (s.ctrl c).counts := by rw [State.putSetup_counts, stands]
  have child : s.parent c = some p := by rw [State.parent, ← setup]; exact parent
  obtain ⟨counts, level, demand⟩ := childHeld_started tree child started
  rw [setup, counted, state]
  refine ⟨.inr ⟨counts, ?_⟩, .inr level⟩
  rw [State.putSetup_ctrl]
  split
  · rw [Ctrl.hand_derived, ← setup]
    exact State.need_le_derivedFrom parent (counted.trans counts)
  · unfold State.resetup
    split
    · next here => subst here; exact demand
    · exact demand

/-! ### The hand-over at the end of a take (R18, R98) -/

theorem Ctrl.leaseHanded_started (started : isStarted r.state = true) (counts : r.counts = true) (lease : Reach) :
    (r.leaseHanded lease).counts = true := by
  unfold Ctrl.leaseHanded
  split
  · exact counts
  · exact Ctrl.counted_of_started (r := r.hand lease r.derivedDemand) started

/-- What a take hands on keeps every started child counted (R97, R98). -/
theorem TreeLaw.handOn (tree : TreeLaw s) : TreeLaw s.handOn := by
  refine treeLaw_iff.2 fun c p parent started => ?_
  have told := s.handOn_told
  rw [(told c).state] at started
  have child : s.parent c = some p := by rw [State.parent, ← (told c).setup]; exact parent
  obtain ⟨counts, level, demand⟩ := childHeld_started tree child started
  have counted : (s.handOn.ctrl c).counts = true := by
    have handed := Ctrl.leaseHanded_started started counts (s.tableDemand c)
    rw [State.handOn_ctrl]
    split <;> exact handed
  refine ⟨.inr ⟨counted, ?_⟩, .inr ?_⟩
  · by_cases moved : ∃ x, (s.ctrl x).setup.parent = some p ∧ s.tableDemand x ≠ (s.ctrl x).leaseDemand
    · have derived : (s.handOn.ctrl p).derivedDemand = s.handOn.derivedFrom p := by
        rw [State.handOn_ctrl, if_pos moved]
        exact Ctrl.hand_derived ..
      rw [derived]
      exact State.need_le_derivedFrom parent counted
    · rw [State.handOn_ctrl s p, if_neg moved, Ctrl.leaseHanded_eq, (told c).setup]
      exact demand
  · rw [(told c).setup, (told p).state]
    exact level

/-! ### The tick (R77) -/

theorem TreeLaw.endTimer (tree : TreeLaw s) (d : Dom) : TreeLaw (s.endTimer d) := by
  unfold State.endTimer
  split
  · exact tree.event (State.endStep_turns d s)
  · exact tree

theorem TreeLaw.endTimers (tree : TreeLaw s) (order : List Dom) : TreeLaw (s.endTimers order) := by
  induction order generalizing s with
  | nil => exact tree
  | cons d order ih => exact ih (tree.endTimer d)

theorem TreeLaw.tick (tree : TreeLaw s) (order : List Dom) : TreeLaw (s.wholeTick order) := by
  have counted : TreeLaw s.countTick := tree.alike fun e => by rw [State.countTick_ctrl]; rfl
  exact (counted.endTimers order).of_ctrl (State.wholeTick_ctrl s order)

/-! ### The steps of RESET_N -/

theorem TreeLaw.of_idle (idle : ∀ c p, s.parent c = some p → isStarted (s.ctrl c).state = false) : TreeLaw s :=
  treeLaw_iff.2 fun c p parent started => by rw [idle c p parent] at started; cases started

theorem State.blank_tree (s : State) : TreeLaw s.blank := by
  refine .of_idle fun c p _ => ?_
  rw [show s.blank.ctrl c = Ctrl.initial c (s.ctrl c).pgood from Vec.get_ofFn _ c]
  rfl

/-- A child of the default tree that a plan demands waits in POWERING or HELD (R78 to R80, R96). -/
theorem risen_idle {pgood up called : Bool} (led : up = true → planReach plan d ≠ none)
    (child : (Config.defaultTree d).1 ≠ none) : isStarted (risen plan d pgood up called).state = false := by
  cases up with
  | false => rfl
  | true =>
    obtain ⟨run, demand⟩ := planReach_run (led rfl)
    unfold risen placed
    rw [if_pos rfl, powerPlace_fed demand, decide_eq_false child]
    cases pgood <;> rfl

theorem State.start_tree (plan : Fin 4) (s : State) (quiet : s.changes = []) : TreeLaw (State.start plan s) := by
  have posed := State.start_posed plan s quiet
  refine .of_idle fun c p parent => ?_
  rw [State.parent, posed.ctrl] at parent
  rw [posed.ctrl]
  exact risen_idle (posed.led c) fun root => by
    rw [show (Config.defaultTree c).1 = some p from parent] at root
    cases root

/-! ### Every step -/

theorem Steers.tree (h : Steers s u) (tree : TreeLaw s) : TreeLaw u := by
  cases h with
  | still still => exact tree.of_ctrls still.ctrls
  | setup _ off => exact tree.setup off
  | divide => exact tree.divide _
  | @clear d faulted =>
    have low : s.floor d = 0 := State.floor_off (by rw [faulted]; rfl)
    exact tree.event (State.toDischarge_upholds low).turns
  | @demand d => exact ((State.demandTaken d s).tree tree).event (State.demandStep_turns d _)
  | @parent d => exact ((State.parentTaken d s).tree tree).event (State.parentStep_turns d _)
  | input => exact (State.setPgood_taken _).tree tree
  | @present d => exact ((State.setPgood_taken true).tree tree).event (State.pgoodStep_turns d _)
  | fall => exact (State.setLoss_taken true).tree ((State.setPgood_taken false).tree tree)
  | @loss d =>
    exact ((State.setLoss_taken false).tree ((State.setPgood_taken false).tree tree)).event (State.lossStep_turns d _)
  | tick => exact tree.tick _

theorem Steered.tree (h : Steered s t) (tree : TreeLaw s) : TreeLaw t := by
  have begun : TreeLaw s.begin := tree.of_ctrls rfl
  cases h with
  | idle => exact tree
  | event steers => exact (steers.tree begun).judged
  | taken steers ctrls => exact ((steers.tree begun).of_ctrls ctrls).handOn.judged
  | reset => exact (State.blank_tree _).judged
  | start => exact (State.start_tree _ _ rfl).judged

end Tree

end Sys2Proof.Machine

/-! ## The forest through every step -/

namespace Sys2Proof.Machine

open Sys2Proof.Statement

section Roots

variable {s t u : State} {d e p : Dom} {z : Setup} {o : Client} {n m fuel : Nat} {can : Bool}

/-! ### Following parents upward -/

/-- Where following parents upward reaches a domain, it does so after some number of steps (R92). -/
theorem State.climb_of_reaches (reaches : s.reaches d fuel p = true) : ∃ n ≤ fuel, s.climb n p = some d := by
  induction fuel generalizing p with
  | zero => exact ⟨0, le_rfl, congrArg some (of_decide_eq_true reaches)⟩
  | succ fuel ih =>
    rw [State.reaches, Bool.or_eq_true] at reaches
    rcases reaches with here | above
    · exact ⟨0, Nat.zero_le _, congrArg some (of_decide_eq_true here)⟩
    · cases parent : (s.ctrl p).setup.parent with
      | none => rw [parent] at above; cases above
      | some q =>
        rw [parent] at above
        obtain ⟨n, near, climbs⟩ := ih above
        refine ⟨n + 1, Nat.succ_le_succ near, ?_⟩
        rw [State.climb_succ, State.parent, parent]
        exact climbs

/-- The domains are a forest exactly where none stands among the eight above itself (R95). -/
theorem forestLaw_iff : ForestLaw s ↔ ∀ d n, 1 ≤ n → n ≤ 8 → s.climb n d ≠ some d := by
  refine ⟨fun law d n above near => law.climb_ne above near d, fun unlooped d => ?_⟩
  unfold State.closesCycle
  cases parent : (s.ctrl d).setup.parent with
  | none => rfl
  | some p =>
    refine Bool.eq_false_iff.2 fun reaches => ?_
    obtain ⟨n, near, climbs⟩ := State.climb_of_reaches reaches
    refine unlooped d (n + 1) (Nat.succ_pos n) (Nat.succ_le_succ near) ?_
    rw [State.climb_succ, State.parent, parent]
    exact climbs

/-- Two trees that differ at one domain alone climb alike below it. -/
theorem State.climb_congr (parents : ∀ e, e ≠ d → t.parent e = s.parent e)
    (avoids : ∀ i < n, t.climb i e ≠ some d) : t.climb n e = s.climb n e := by
  induction n generalizing e with
  | zero => rfl
  | succ n ih =>
    have same : t.parent e = s.parent e := parents e fun here => avoids 0 (Nat.succ_pos n) (congrArg some here)
    rw [State.climb_succ, State.climb_succ, ← same]
    cases parent : t.parent e with
    | none => rfl
    | some q =>
      refine ih fun i below => ?_
      have avoided := avoids (i + 1) (Nat.succ_lt_succ below)
      rw [State.climb_succ, parent] at avoided
      exact avoided

/-- A cycle closes from every domain on it. -/
theorem State.climb_turn (closes : t.climb n e = some e) (le : m ≤ n) (passes : t.climb m e = some d) :
    t.climb n d = some d := by
  have back : t.climb (n - m) d = some e := by
    rw [show n = m + (n - m) by omega, State.climb_add, passes] at closes
    exact closes
  rw [show n = (n - m) + m by omega, State.climb_add, back]
  exact passes

/-- One domain moved to a parent that is not below it leaves a forest (R92, R95). -/
theorem ForestLaw.graft (law : ForestLaw s) (parents : ∀ e, e ≠ d → t.parent e = s.parent e)
    (acyclic : s.closesCycle d (t.parent d) = false) : ForestLaw t := by
  have open_ : ∀ n, 1 ≤ n → n ≤ 8 → t.climb n d ≠ some d := by
    intro n
    induction n using Nat.strong_induction_on with
    | _ n shorter =>
    intro above near climbs
    obtain ⟨k, rfl⟩ : ∃ k, n = k + 1 := ⟨n - 1, by omega⟩
    obtain ⟨q, parent, up⟩ := Option.bind_eq_some_iff.1 climbs
    have avoids : ∀ i < k, t.climb i q ≠ some d := fun i below passes => by
      refine shorter (i + 1) (by omega) (by omega) (by omega) ?_
      rw [State.climb_succ, parent]
      exact passes
    rw [State.climb_congr parents avoids] at up
    rw [parent] at acyclic
    exact absurd (State.reaches_of_climb up (show k ≤ 7 by omega)) (Bool.eq_false_iff.1 acyclic)
  refine forestLaw_iff.2 fun e n above near closes => ?_
  by_cases passes : ∃ i < n, t.climb i e = some d
  · obtain ⟨i, below, passes⟩ := passes
    exact open_ n above near (State.climb_turn closes below.le passes)
  · rw [State.climb_congr parents fun i below at_ => passes ⟨i, below, at_⟩] at closes
    exact law.climb_ne above near e closes

/-- The default tree is a forest (R95, R96). -/
theorem forestLaw_default (setup : ∀ e, (t.ctrl e).setup = Config.defaultSetup e) : ForestLaw t := by
  have reset : ForestLaw State.reset := by decide
  exact reset.congr fun e => by rw [setup, show State.reset.ctrl e = Ctrl.initial e false from Vec.get_ofFn _ e]; rfl

/-! ### The setups that a step leaves -/

/-- Every domain keeps its setup. -/
abbrev Rooted (s t : State) : Prop := ∀ e, (t.ctrl e).setup = (s.ctrl e).setup

theorem Rooted.trans (h : Rooted s t) (k : Rooted t u) : Rooted s u := fun e => (k e).trans (h e)

theorem Still.rooted (h : Still s t) : Rooted s t := fun e => by unfold State.ctrl; rw [h.ctrls]

theorem Taken.rooted (h : Taken d s t) : Rooted s t := h.setup

theorem State.handOn_rooted (s : State) : Rooted s s.handOn := fun e => (s.handOn_told e).setup

theorem State.endTimers_rooted (order : List Dom) (s : State) : Rooted s (s.endTimers order) := by
  refine foldl_keeps Rooted (fun _ _ => rfl) .trans State.endTimer (fun v d => ?_) order s
  unfold State.endTimer
  split
  · exact State.event_setup (State.endStep_turns d v)
  · exact fun _ => rfl

theorem State.wholeTick_rooted (order : List Dom) (s : State) : Rooted s (s.wholeTick order) := by
  have counted : Rooted s s.countTick := fun e => by rw [State.countTick_ctrl]
  exact fun e => (congrArg Ctrl.setup (s.wholeTick_ctrl order e)).trans
    ((counted.trans (s.countTick.endTimers_rooted order)) e)

/-- The domains are a forest after an event if they were one before it. -/
abbrev KeepsForest (s t : State) : Prop := ForestLaw s → ForestLaw t

theorem Rooted.keepsForest (h : Rooted s t) : KeepsForest s t := fun law => law.congr h

theorem KeepsForest.trans (h : KeepsForest s t) (k : KeepsForest t u) : KeepsForest s u := fun law => k (h law)

theorem Still.keepsForest (h : Still s t) : KeepsForest s t := h.rooted.keepsForest

/-- An event of a controller leaves the forest, whatever passages it makes. -/
theorem State.event_keepsForest {passage : State → State} (taken : Taken d s t) (turns : Turns d t (passage t)) :
    KeepsForest s (t.event d passage) := (taken.rooted.trans (State.event_setup turns)).keepsForest

/-- DOMAIN.SETUP moves one domain, and not below itself (R92, R93). -/
theorem State.putSetup_keepsForest (acyclic : s.closesCycle d z.parent = false) : KeepsForest s (s.putSetup d z) := by
  have setup (e : Dom) : ((s.putSetup d z).ctrl e).setup = (s.resetup d z e).setup := by
    rw [(s.putSetup_told d z e).setup, State.resetup_eq]
  refine fun law => law.graft (d := d) (fun e other => ?_) ?_
  · rw [State.parent, setup, State.resetup, if_neg other]; rfl
  · rw [State.parent, setup, State.resetup, if_pos rfl]
    exact acyclic

theorem State.divide_rooted (d : Dom) (k : Nat) (s : State) : Rooted s (s.divide d k) := fun e => by
  rw [(State.divide_becomes (s := s) (d := d) k rfl).ctrl]
  split
  · next here => rw [here]; rfl
  · rfl

/-! ### What each command makes of the forest -/

theorem Granted.keepsForest {k : ReqKind} {c : Client} (h : Granted s c k t) : KeepsForest s t := by
  cases h with
  | leaseTake => exact (State.create_still ..).keepsForest
  | leaseRenew | leaseAlter | leaseWithdraw | watchSet | superPass | clientClearCause | clientQuota | read =>
    exact Rooted.keepsForest fun _ => rfl
  | leaseRelease => exact (State.retire_frame ..).still.keepsForest
  | leaseRevoke =>
    exact (((State.retire_frame ..).still.trans (State.dropAdoption_still _)).trans
      (State.notifyOwner_frame ..).still).keepsForest
  | leaseOffer =>
    exact (Still.trans (t := s.putLease _ _) (.of_eq rfl rfl) (State.notify_frame ..).still).keepsForest
  | leaseAccept =>
    exact (Still.trans (t := s.putLease _ _) (.of_eq rfl rfl) (State.notifyOwner_frame ..).still).keepsForest
  | leaseAdopt => exact (Still.trans (t := s.putLease _ _) (.of_eq rfl rfl) (State.dropAdoption_still _)).keepsForest
  | watchDrop => exact (State.dropWatch_still ..).keepsForest
  | domainSetup _ _ _ acyclic => exact State.putSetup_keepsForest acyclic
  | @domainDivide d k => exact (s.divide_rooted d k).keepsForest
  | @domainClear d _ faulted =>
    have low : s.floor d = 0 := State.floor_off (by rw [faulted]; rfl)
    exact Rooted.keepsForest (State.event_setup (State.toDischarge_upholds low).turns)
  | clientRestart => exact (State.restart_still ..).keepsForest
  | noticeFetch => exact (State.putQueue_frame ..).still.keepsForest

theorem afterRefusal_still (s : State) (c : Client) (status : Status) : Still s (afterRefusal s c status) := by
  unfold afterRefusal
  split
  · exact (State.putQueue_frame ..).still
  · exact .refl s

theorem ruleOf_keepsForest (s : State) (c : Client) (r : Request) :
    KeepsForest s (ruleOf r.kind c r.body s).state := by
  rcases ruleOf_cases s c r with ⟨status, refused⟩ | granted
  · rw [refused]; exact (afterRefusal_still s c status).keepsForest
  · exact granted.keepsForest

theorem State.judgeRest_rooted (s : State) : Rooted s s.judgeRest := fun e => by rw [State.judgeRest_frame]; rfl

/-- The beginning of an event and the judgement of the rest after it leave the forest to the event. -/
theorem occur_keepsForest {event : State → State} (h : can = true → KeepsForest s.begin (event s.begin))
    (e : s.occur can event = .next t) : KeepsForest s t := by
  have begun : KeepsForest s s.begin := Rooted.keepsForest fun _ => rfl
  unfold State.occur at e
  split at e
  · next able => cases e; exact (begun.trans (h able)).trans (event s.begin).judgeRest_rooted.keepsForest
  · cases e; exact id

theorem still_keepsForest {event : State → State} (still : Still s.begin (event s.begin))
    (e : s.occur can event = .next t) : KeepsForest s t := occur_keepsForest (fun _ => still.keepsForest) e

theorem claim_keepsForest {take : State → State} (h : can = true → KeepsForest s.begin (take s.begin))
    (e : s.claim can take = .next t) : KeepsForest s t :=
  occur_keepsForest (event := fun v => (take v).handOn)
    (fun able => (h (Bool.and_eq_true_iff.1 able).2).trans (take s.begin).handOn_rooted.keepsForest) e

theorem take_keepsForest (k : ReqKind) (e : exec (commandOf k) s = .next t) : KeepsForest s t := by
  rw [exec_commandOf] at e
  unfold State.take at e
  split at e
  · next c r _ =>
    refine claim_keepsForest (fun kind => ?_) e
    obtain rfl : r.kind = k := of_decide_eq_true kind
    exact (ruleOf_keepsForest s.begin c r).trans (Rooted.keepsForest fun _ => rfl)
  · cases e; exact id

theorem tick_keepsForest {order : List Dom} (e : s.occur can (State.wholeTick order) = .next t) : KeepsForest s t :=
  occur_keepsForest (fun _ => (s.begin.wholeTick_rooted order).keepsForest) e

theorem execLineSample_keepsForest (e : execLineSample s = .next t) : KeepsForest s t := by
  unfold execLineSample at e
  exact still_keepsForest (.of_eq rfl rfl) e

theorem execWakingEnd_keepsForest (e : execWakingEnd s = .next t) : KeepsForest s t := by
  unfold execWakingEnd at e
  exact still_keepsForest (.of_eq rfl rfl) e

theorem execWakeLineChange_keepsForest {l : Line} {high : Bool} (e : execWakeLineChange l high s = .next t) :
    KeepsForest s t := by
  unfold execWakeLineChange at e
  exact still_keepsForest (.of_eq rfl rfl) e

theorem execHomeLostTeardown_keepsForest (e : execHomeLostTeardown o s = .next t) : KeepsForest s t := by
  unfold execHomeLostTeardown at e
  exact still_keepsForest (State.tearDown_still o _) e

theorem execDemandChange_keepsForest (e : execDemandChange d s = .next t) : KeepsForest s t := by
  unfold execDemandChange at e
  refine occur_keepsForest (fun _ => ?_) e
  exact State.event_keepsForest (State.demandTaken d _) (State.demandStep_turns ..)

theorem execParentChange_keepsForest (e : execParentChange d s = .next t) : KeepsForest s t := by
  unfold execParentChange at e
  refine occur_keepsForest (fun _ => ?_) e
  exact State.event_keepsForest (State.parentTaken d _) (State.parentStep_turns ..)

theorem execPgoodPresent_keepsForest (e : execPgoodPresent d s = .next t) : KeepsForest s t := by
  unfold execPgoodPresent at e
  refine occur_keepsForest (fun _ => ?_) e
  dsimp only
  split
  · exact (State.setPgood_taken true).rooted.keepsForest
  · exact State.event_keepsForest (State.setPgood_taken true) (State.pgoodStep_turns ..)

theorem execPgoodLoss_keepsForest {fall : PgoodFall} (e : execPgoodLoss fall s = .next t) : KeepsForest s t := by
  unfold execPgoodLoss at e
  refine occur_keepsForest (fun _ => ?_) e
  have fallen := (State.setPgood_taken (d := fall.domain) (s := s.begin) false).rooted.keepsForest
  dsimp only
  split
  · exact fallen
  · split
    · exact fallen.trans (State.setLoss_taken true).rooted.keepsForest
    · exact fallen.trans (State.event_keepsForest (State.setLoss_taken false) (State.lossStep_turns ..))

theorem execSend_keepsForest {cut : Bool} {bytes : List Byte} (e : execSend o cut bytes s = .next t) :
    KeepsForest s t := by
  unfold execSend at e
  refine still_keepsForest ?_ e
  dsimp only
  split
  · exact ((State.driveMiso_frame ..).trans (State.receive_frame ..)).still
  · exact (State.driveMiso_frame ..).still

theorem execCollect_keepsForest {cut : Option Nat} {n : Nat} (e : execCollect o cut n s = .next t) :
    KeepsForest s t := by
  unfold execCollect at e
  refine still_keepsForest ?_ e
  dsimp only
  split
  · exact (State.driveMiso_frame ..).still
  · exact ((State.driveMiso_frame ..).trans (State.afterCollect_frame ..)).still

theorem execIgnoredTransaction_keepsForest {cut : Bool} {bytes : List Byte}
    (e : execIgnoredTransaction o cut bytes s = .next t) : KeepsForest s t := by
  unfold execIgnoredTransaction at e
  refine still_keepsForest ?_ e
  dsimp only
  split
  · exact ((State.driveMiso_frame ..).trans (State.setPort_frame ..)).still
  · exact (State.driveMiso_frame ..).still

/-- A blank part has the default tree (R162). -/
theorem State.blank_forest (s : State) : ForestLaw s.blank :=
  forestLaw_default fun e => by rw [show s.blank.ctrl e = Ctrl.initial e (s.ctrl e).pgood from Vec.get_ofFn _ e]; rfl

/-- A part that has started has the default tree (R96, R164). -/
theorem State.start_forest (plan : Fin 4) (s : State) (quiet : s.changes = []) : ForestLaw (State.start plan s) :=
  forestLaw_default fun e => by rw [(State.start_posed plan s quiet).ctrl]; rfl

theorem execResetAssert_keepsForest (e : execResetAssert s = .next t) : KeepsForest s t := by
  unfold execResetAssert at e
  refine occur_keepsForest (fun _ => ?_) e
  exact fun _ => State.blank_forest _

theorem execPartStart_keepsForest {plan1 plan0 : Bool} (e : execPartStart plan1 plan0 s = .next t) :
    KeepsForest s t := by
  unfold execPartStart at e
  refine occur_keepsForest (fun _ => ?_) e
  exact fun _ => State.start_forest _ _ rfl

/-- Every command keeps the domains a forest. -/
theorem exec_keepsForest (i : Instr) (e : exec i s = .next t) : KeepsForest s t := by
  cases i with
  | leaseTake => exact take_keepsForest .leaseTake e
  | leaseRenew => exact take_keepsForest .leaseRenew e
  | leaseAlter => exact take_keepsForest .leaseAlter e
  | leaseRelease => exact take_keepsForest .leaseRelease e
  | leaseRead => exact take_keepsForest .leaseRead e
  | leaseList => exact take_keepsForest .leaseList e
  | leaseRevoke => exact take_keepsForest .leaseRevoke e
  | leaseOffer => exact take_keepsForest .leaseOffer e
  | leaseWithdraw => exact take_keepsForest .leaseWithdraw e
  | leaseAccept => exact take_keepsForest .leaseAccept e
  | leaseAdopt => exact take_keepsForest .leaseAdopt e
  | watchSet => exact take_keepsForest .watchSet e
  | watchDrop => exact take_keepsForest .watchDrop e
  | watchRead => exact take_keepsForest .watchRead e
  | linesRead => exact take_keepsForest .linesRead e
  | domainRead => exact take_keepsForest .domainRead e
  | domainSetup => exact take_keepsForest .domainSetup e
  | domainDivide => exact take_keepsForest .domainDivide e
  | domainClear => exact take_keepsForest .domainClear e
  | clientStatus => exact take_keepsForest .clientStatus e
  | clientClearCause => exact take_keepsForest .clientClearCause e
  | clientQuota => exact take_keepsForest .clientQuota e
  | clientRestart => exact take_keepsForest .clientRestart e
  | superPass => exact take_keepsForest .superPass e
  | noticeFetch => exact take_keepsForest .noticeFetch e
  | partIdent => exact take_keepsForest .partIdent e
  | tick | remainingReachesZero | offerWindowRunsOut | adoptionWindowRunsOut | restartPulseEnd | restDelayEnd =>
    exact tick_keepsForest e
  | rampEnd d | settleEnd d | lingerEnd d | dischargeEnd d => exact tick_keepsForest e
  | leaseTermExpiry h => exact claim_keepsForest (fun _ => (State.takeTerm_still h _).keepsForest) e
  | offerWindowExpiry h => exact claim_keepsForest (fun _ => (State.takeWindow_still h _).keepsForest) e
  | adoptionWindowExpiry => exact claim_keepsForest (fun _ => (State.takeAdoption_still _).keepsForest) e
  | firing w => exact claim_keepsForest (fun _ => (State.fire_still w _).keepsForest) e
  | lineSample => exact execLineSample_keepsForest e
  | wakeLineChange => exact execWakeLineChange_keepsForest e
  | wakingEnd => exact execWakingEnd_keepsForest e
  | demandChange => exact execDemandChange_keepsForest e
  | parentChange => exact execParentChange_keepsForest e
  | pgoodPresent => exact execPgoodPresent_keepsForest e
  | pgoodLoss => exact execPgoodLoss_keepsForest e
  | homeLostTeardown => exact execHomeLostTeardown_keepsForest e
  | send => exact execSend_keepsForest e
  | collect => exact execCollect_keepsForest e
  | ignoredTransaction => exact execIgnoredTransaction_keepsForest e
  | resetAssert => exact execResetAssert_keepsForest e
  | partStart => exact execPartStart_keepsForest e

/-! ### The obligation -/

/-- Settles O57: DOMAIN.SETUP alone writes a parent, and only where the climb from the new parent misses the domain; and
a controller falls below what is demanded of it only into FAULT, where the stop below it takes down the children that it
no longer bears. -/
theorem stepsKeepTheTree : Obligations.StepsKeepTheTree := by
  refine ⟨fun s t forest e => ?_, fun s t tree e => ?_⟩
  · rcases step_exec e with rfl | ⟨c, rest, e⟩
    · exact forest
    · exact exec_keepsForest c e (forest.congr fun _ => rfl)
  · rcases step_exec e with rfl | ⟨c, rest, e⟩
    · exact tree
    · exact (exec_steered c e).tree (tree.of_ctrls rfl)

end Roots

end Sys2Proof.Machine
